-- ==== Sys2Proof/Word.lean ====
section
/-! DEFINITION. The word types of the CORE: interface words, samples, binary32 encodings. -/

namespace Sys2Proof

/-- A 32-bit interface word: `CMD`, `OPA`, `OPB`, `RES0`, `RES1`, `STATUS` (10_state.md R15). -/
abbrev Word := BitVec 32

/-- A 16-bit field: an immediate, a raw preset field, an address, or a sample (s16) of the Work Area
(10_state.md R18, R24; 30_encoding.md R47). -/
abbrev Half := BitVec 16

/-- A binary32 value carried as its IEEE-754 encoding: bit 31 sign, 30:23 biased exponent, 22:0 fraction
(30_encoding.md R52). -/
abbrev F32 := BitVec 32

end Sys2Proof
end

