-- ==== Sys2Proof/Syntax.lean ====
section
/-! DEFINITION. The commands of the CORE: one constructor for each row of the opcode table (30_encoding.md R49). The
operand words `OPA` and `OPB` are part of a command (R47); a command that ignores one has no field for it (log 12). -/

namespace Sys2Proof

/-- `CH` (30_encoding.md R48): 0 the left channel, 1 the right. -/
inductive Channel where
  | left
  | right
deriving DecidableEq, Repr

/-- `HBSEL` (30_encoding.md R48, R56): `DL` 0, `DR` 1, `UL` 2, `UR` 3, the ring `HB[HBSEL]`. -/
inductive RingSel where
  | downL
  | downR
  | upL
  | upR
deriving DecidableEq, Repr

/-- The eighteen commands. -/
inductive Instr where
  /-- `NOP` (45_pipeline_and_host.md R111). -/
  | nop
  /-- `INIT` (45_pipeline_and_host.md R112). -/
  | init
  /-- `HB_DEC ch, x0, x1` (40_halfband.md R66). -/
  | hbDec (ch : Channel) (x0 x1 : F32)
  /-- `HB_INT ch, y` (40_halfband.md R69). -/
  | hbInt (ch : Channel) (y : F32)
  /-- `WA_RD off` (41_work_area.md R77). -/
  | waRd (off : Half)
  /-- `WA_WR off, v` (41_work_area.md R78). -/
  | waWr (off : Half) (v : F32)
  /-- `WA_ADV n` (41_work_area.md R79). -/
  | waAdv (n : Half)
  /-- `WA_RESIZE bytes` (41_work_area.md R80). -/
  | waResize (bytes : Half)
  /-- `RV_TICK xL, xR` (43_reverb_tick.md R100). -/
  | rvTick (xL xR : F32)
  /-- `PS_APPLY idx` (42_preset_scaler.md R85). -/
  | psApply (idx : Half)
  /-- `PS_DECAY v` (44_parameter_controller.md R105). -/
  | psDecay (v : F32)
  /-- `PS_INGAIN v` (44_parameter_controller.md R106). -/
  | psIngain (v : F32)
  /-- `PS_REVLVL v` (44_parameter_controller.md R107). -/
  | psRevlvl (v : F32)
  /-- `PS_MIX v` (44_parameter_controller.md R108). -/
  | psMix (v : F32)
  /-- `PS_DERIVE` (42_preset_scaler.md R86). -/
  | psDerive
  /-- `GET item` (45_pipeline_and_host.md R114). -/
  | get (item : Half)
  /-- `GET_HB h, slot` (45_pipeline_and_host.md R115). -/
  | getHb (h : RingSel) (slot : BitVec 6)
  /-- `PROCESS_PAIR f0, f1` (45_pipeline_and_host.md R119); a frame is `R` in bits 31:16 and `L` in 15:0 (30_encoding.md R53). -/
  | processPair (f0 f1 : Word)
deriving DecidableEq, Repr

end Sys2Proof
end

