-- ==== Sys2Proof/Decode.lean ====
section
/-! DEFINITION. The decoder (30_encoding.md R47 to R55), total on any three words, rejecting by name, and after it the
encoder (R56). -/

namespace Sys2Proof

/-- The eighteen opcodes of 30_encoding.md R49. -/
inductive Opcode where
  | nop | init | hbDec | hbInt | waRd | waWr | waAdv | waResize | rvTick | psApply | psDecay | psIngain
  | psRevlvl | psMix | psDerive | get | getHb | processPair
deriving DecidableEq, Repr

/-- The four formats of 30_encoding.md R48. -/
inductive Format where
  | f0 | fc | fi | fs
deriving DecidableEq, Repr

/-- A command as the host presents it: the command word and the two operand words (30_encoding.md R45, R47). -/
structure CmdWords where
  cmd : Word
  opa : Word
  opb : Word
deriving DecidableEq, Repr

/-- Why a command word is rejected (30_encoding.md R50). -/
inductive Reject where
  /-- The opcode is not in the table: `CmdError(ILL_OPC)`. -/
  | illOpc
  /-- A bit outside the variable fields of the opcode's format is set: `CmdError(RSV)`. -/
  | rsv
deriving DecidableEq, Repr

/-- What the decoder answers. -/
inductive Decoded where
  | ok (i : Instr)
  | rejected (r : Reject)
deriving DecidableEq, Repr

/-- `OPC` (30_encoding.md R49), bits 31:24 of the command word. -/
def Opcode.code : Opcode → BitVec 8
  | .nop => 0x00#8
  | .init => 0x01#8
  | .hbDec => 0x10#8
  | .hbInt => 0x11#8
  | .waRd => 0x20#8
  | .waWr => 0x21#8
  | .waAdv => 0x22#8
  | .waResize => 0x23#8
  | .rvTick => 0x30#8
  | .psApply => 0x40#8
  | .psDecay => 0x41#8
  | .psIngain => 0x42#8
  | .psRevlvl => 0x43#8
  | .psMix => 0x44#8
  | .psDerive => 0x45#8
  | .get => 0x50#8
  | .getHb => 0x51#8
  | .processPair => 0x60#8

/-- The format of each opcode (30_encoding.md R49). -/
def Opcode.format : Opcode → Format
  | .hbDec | .hbInt => .fc
  | .waRd | .waWr | .waAdv | .waResize | .psApply | .get => .fi
  | .getHb => .fs
  | .nop | .init | .rvTick | .psDecay | .psIngain | .psRevlvl | .psMix | .psDerive | .processPair => .f0

/-- The mask of a format: the bits a command word must have as the opcode's match has them (30_encoding.md R48). -/
def Format.mask : Format → Word
  | .f0 => 0xFFFFFFFF#32
  | .fc => 0xFFEFFFFF#32
  | .fi => 0xFFFF0000#32
  | .fs => 0xFFCFFFC0#32

/-- The word of an opcode with every variable field 0 (30_encoding.md R49). -/
def Opcode.matchWord (op : Opcode) : Word := op.code.zeroExtend 32 <<< 24

/-- The opcode table's rows, in its order. -/
def opcodes : List Opcode :=
  [.nop, .init, .hbDec, .hbInt, .waRd, .waWr, .waAdv, .waResize, .rvTick, .psApply, .psDecay, .psIngain,
   .psRevlvl, .psMix, .psDerive, .get, .getHb, .processPair]

/-- The row whose `OPC` is `c`, if there is one (30_encoding.md R50). -/
def opcodeOf (c : BitVec 8) : Option Opcode := opcodes.find? fun op => op.code == c

/-- `CH = SEL[0]`, bit 20 (30_encoding.md R48). -/
def channelField (w : Word) : Channel := if w.extractLsb' 20 1 = 0#1 then .left else .right

/-- `HBSEL = SEL[1:0]`, bits 21:20 (30_encoding.md R48). -/
def ringField (w : Word) : RingSel :=
  if w.extractLsb' 20 2 = 0#2 then .downL
  else if w.extractLsb' 20 2 = 1#2 then .downR
  else if w.extractLsb' 20 2 = 2#2 then .upL
  else .upR

/-- `IMM`, bits 15:0 (30_encoding.md R47). -/
def immField (w : Word) : Half := w.extractLsb' 0 16

/-- `SLOT = IMM[5:0]` (30_encoding.md R48). -/
def slotField (w : Word) : BitVec 6 := w.extractLsb' 0 6

/-- The command of a row, with its fields and operands (30_encoding.md R49, R51, R52, R53). -/
def buildInstr (op : Opcode) (c : CmdWords) : Instr :=
  match op with
  | .nop => .nop
  | .init => .init
  | .hbDec => .hbDec (channelField c.cmd) c.opa c.opb
  | .hbInt => .hbInt (channelField c.cmd) c.opa
  | .waRd => .waRd (immField c.cmd)
  | .waWr => .waWr (immField c.cmd) c.opa
  | .waAdv => .waAdv (immField c.cmd)
  | .waResize => .waResize (immField c.cmd)
  | .rvTick => .rvTick c.opa c.opb
  | .psApply => .psApply (immField c.cmd)
  | .psDecay => .psDecay c.opa
  | .psIngain => .psIngain c.opa
  | .psRevlvl => .psRevlvl c.opa
  | .psMix => .psMix c.opa
  | .psDerive => .psDerive
  | .get => .get (immField c.cmd)
  | .getHb => .getHb (ringField c.cmd) (slotField c.cmd)
  | .processPair => .processPair c.opa c.opb

/-- Decoding a command (30_encoding.md R50): no row is `ILL_OPC`; a bit outside the row's variable fields is `RSV`. -/
def decode (c : CmdWords) : Decoded :=
  match opcodeOf (c.cmd.extractLsb' 24 8) with
  | none => .rejected .illOpc
  | some op =>
    if c.cmd &&& op.format.mask = op.matchWord then .ok (buildInstr op c) else .rejected .rsv

/-- The three words of the command whose bits are `w`, `nbits` of them, the bits above 0: the command word is bits
31:0, `OPA` bits 63:32, `OPB` bits 95:64. The interface carries whole words, so no byte order enters
(20_memory.md R36). -/
def tableWords (nbits w : Nat) : CmdWords :=
  let v := w % 2 ^ nbits
  ⟨BitVec.ofNat 32 v, BitVec.ofNat 32 (v / 2 ^ 32), BitVec.ofNat 32 (v / 2 ^ 64)⟩

/-- The instruction the decoder reads from the bits `w` of a table row. -/
def decodeTableWord (nbits w : Nat) : Option Instr :=
  match decode (tableWords nbits w) with
  | .ok i => some i
  | .rejected _ => none

/-- `SEL` of a channel: `SEL[0] = CH` (30_encoding.md R48). -/
def Channel.sel : Channel → BitVec 4
  | .left => 0#4
  | .right => 1#4

/-- `SEL` of a ring: `SEL[1:0] = HBSEL` (30_encoding.md R48). -/
def RingSel.sel : RingSel → BitVec 4
  | .downL => 0#4
  | .downR => 1#4
  | .upL => 2#4
  | .upR => 3#4

/-- The row of a command. -/
def Instr.opcode : Instr → Opcode
  | .nop => .nop
  | .init => .init
  | .hbDec _ _ _ => .hbDec
  | .hbInt _ _ => .hbInt
  | .waRd _ => .waRd
  | .waWr _ _ => .waWr
  | .waAdv _ => .waAdv
  | .waResize _ => .waResize
  | .rvTick _ _ => .rvTick
  | .psApply _ => .psApply
  | .psDecay _ => .psDecay
  | .psIngain _ => .psIngain
  | .psRevlvl _ => .psRevlvl
  | .psMix _ => .psMix
  | .psDerive => .psDerive
  | .get _ => .get
  | .getHb _ _ => .getHb
  | .processPair _ _ => .processPair

/-- A command word from its fields: `OPC`, `SEL`, `RSV` = 0, `IMM` (30_encoding.md R47). -/
def commandWord (op : Opcode) (sel : BitVec 4) (imm : Half) : Word := op.code ++ sel ++ 0#4 ++ imm

/-- The words of a command (30_encoding.md R56); an unused operand is written as 0. -/
def encode : Instr → CmdWords
  | .nop => ⟨commandWord .nop 0#4 0#16, 0#32, 0#32⟩
  | .init => ⟨commandWord .init 0#4 0#16, 0#32, 0#32⟩
  | .hbDec ch x0 x1 => ⟨commandWord .hbDec ch.sel 0#16, x0, x1⟩
  | .hbInt ch y => ⟨commandWord .hbInt ch.sel 0#16, y, 0#32⟩
  | .waRd off => ⟨commandWord .waRd 0#4 off, 0#32, 0#32⟩
  | .waWr off v => ⟨commandWord .waWr 0#4 off, v, 0#32⟩
  | .waAdv n => ⟨commandWord .waAdv 0#4 n, 0#32, 0#32⟩
  | .waResize bytes => ⟨commandWord .waResize 0#4 bytes, 0#32, 0#32⟩
  | .rvTick xL xR => ⟨commandWord .rvTick 0#4 0#16, xL, xR⟩
  | .psApply idx => ⟨commandWord .psApply 0#4 idx, 0#32, 0#32⟩
  | .psDecay v => ⟨commandWord .psDecay 0#4 0#16, v, 0#32⟩
  | .psIngain v => ⟨commandWord .psIngain 0#4 0#16, v, 0#32⟩
  | .psRevlvl v => ⟨commandWord .psRevlvl 0#4 0#16, v, 0#32⟩
  | .psMix v => ⟨commandWord .psMix 0#4 0#16, v, 0#32⟩
  | .psDerive => ⟨commandWord .psDerive 0#4 0#16, 0#32, 0#32⟩
  | .get item => ⟨commandWord .get 0#4 item, 0#32, 0#32⟩
  | .getHb h slot => ⟨commandWord .getHb h.sel (slot.zeroExtend 16), 0#32, 0#32⟩
  | .processPair f0 f1 => ⟨commandWord .processPair 0#4 0#16, f0, f1⟩

end Sys2Proof
end

