-- ==== Sys2Proof/Config.lean ====
section
/-! DEFINITION. What an implementation fixes and no command writes (10_state.md R13; 00_scope.md R6): the preset
table, the filter coefficients, the preset names; and the free values behind NaN results. The opaque constants
have no body: nothing can be proved of their value. -/

namespace Sys2Proof

/-- A raw entry of the preset table: the 35 numeric fields of 10_state.md R18, in index order 0..34, each the
16 bits as authored. The gains (`v…`) are s16, the addresses, offsets and the size are u16. -/
structure RawPreset where
  dAPF1 : Half
  dAPF2 : Half
  vIIR : Half
  vCOMB1 : Half
  vCOMB2 : Half
  vCOMB3 : Half
  vCOMB4 : Half
  vWALL : Half
  vAPF1 : Half
  vAPF2 : Half
  dLSAME : Half
  dRSAME : Half
  mLSAME : Half
  mRSAME : Half
  dLDIFF : Half
  dRDIFF : Half
  mLDIFF : Half
  mRDIFF : Half
  mLCOMB1 : Half
  mRCOMB1 : Half
  mLCOMB2 : Half
  mRCOMB2 : Half
  mLCOMB3 : Half
  mRCOMB3 : Half
  mLCOMB4 : Half
  mRCOMB4 : Half
  mLAPF1 : Half
  mRAPF1 : Half
  mLAPF2 : Half
  mRAPF2 : Half
  vLIN : Half
  vRIN : Half
  vLOUT : Half
  vROUT : Half
  sizeBytes : Half
deriving DecidableEq, Repr, Inhabited

/-- The OPEN parameters a command reads (00_scope.md R6). The operations take them as an argument, so that they
can be run on a test configuration; the machine itself runs on `Config.params`. -/
structure Params where
  /-- `HB_COEFF[k]`, read for `k = 0 .. 38`. -/
  coeff : Nat → F32
  /-- `PRESET_TABLE[i]`. -/
  preset : Fin 6 → RawPreset

/-- OPEN: the first half of the coefficient table, `HB_COEFF[0..19]`, before `Config.hbCoeff` keeps it finite
(40_halfband.md R58; log 3). -/
opaque Config.hbHalf : Fin 20 → F32

/-- OPEN: `PRESET_TABLE[0..5]` (10_state.md R18; 92_eei_decisions.md D10; log 4). -/
opaque Config.presetTable : Fin 6 → RawPreset

/-- FREE VALUE: the encodings behind the NaN results of the machine, one for each draw
(93_implementation_defined.md row 9; log 5). -/
opaque Config.freeNaNBits : Nat → Word

/-- FREE VALUE: the encoding behind a NaN gain of `CUR`, which no reachable state holds (log 6). -/
opaque Config.gainNaNBits : Word

/-- `HB_COEFF[k]`: symmetric, `HB_COEFF[k] = HB_COEFF[38 − k]` (40_halfband.md R59). DEDUCED, unsafe (log 3): the
taps are finite numbers; an infinity or a NaN in the opaque table reads as `+0.0`. -/
def Config.hbCoeff (k : Nat) : F32 :=
  let c := Config.hbHalf (Fin.ofNat 20 (if k ≤ 19 then k else 38 - k))
  if c.extractLsb' 23 8 = 0xFF#8 then 0#32 else c

/-- The configuration the machine runs on. -/
def Config.params : Params := ⟨Config.hbCoeff, Config.presetTable⟩

/-- `NUM_PRESETS` (00_scope.md R6). -/
def Config.numPresets : Nat := 6

/-- `PRESET_NAMES` (00_scope.md R6); the CORE returns no string, the host looks the name up (42_preset_scaler.md R87). -/
def Config.presetName (i : Fin 6) : String :=
  match i with
  | 0 => "Room"
  | 1 => "Studio-S"
  | 2 => "Studio-M"
  | 3 => "Studio-L"
  | 4 => "Hall"
  | 5 => "Space-Echo"

end Sys2Proof
end

