-- ==== Sys2Proof/Machine/Float.lean ====
section
/-! DEFINITION. IEEE-754 binary32 arithmetic (00_scope.md R8, R10; 92_eei_decisions.md D5). A value is exact: every
finite binary32 number is a whole multiple of 2^−149, so a number is a sign and a natural number of such units.
Each operation is computed exactly and rounded once, to nearest with ties to even; subnormals are kept. -/

namespace Sys2Proof.Machine

/-- What a binary32 encoding stands for. All NaNs are one value here: no operation looks inside a NaN, and the
encoding a NaN result gets is a free value, chosen where it is stored (log 5). -/
inductive FVal where
  /-- A finite number: `mag` units of 2^−149, negative if `neg`; `num true 0` is `−0.0`. -/
  | num (neg : Bool) (mag : Nat)
  /-- An infinity. -/
  | inf (neg : Bool)
  /-- Not a number. -/
  | nan
deriving DecidableEq, Repr

/-- The biased exponent field, bits 30:23 (30_encoding.md R52). -/
def expField (w : F32) : BitVec 8 := w.extractLsb' 23 8

/-- The fraction field, bits 22:0 (30_encoding.md R52). -/
def fracField (w : F32) : BitVec 23 := w.extractLsb' 0 23

/-- `isfinite` on an encoding (00_scope.md R10): neither an infinity nor a NaN. -/
def isFinite (w : F32) : Bool := expField w != 0xFF#8

/-- Whether an encoding is a NaN. -/
def isNaN (w : F32) : Bool := expField w == 0xFF#8 && fracField w != 0#23

/-- The NaN behind arbitrary bits: the exponent all ones, the fraction kept unless it is zero. Every NaN encoding
is the NaN behind itself. -/
def nanOf (w : Word) : F32 :=
  (w ||| 0x7F800000#32) ||| (if fracField w = 0#23 then 1#32 else 0#32)

/-- The value of an encoding (30_encoding.md R52). -/
def toVal (w : F32) : FVal :=
  if expField w = 0xFF#8 then
    if fracField w = 0#23 then .inf w.msb else .nan
  else if expField w = 0#8 then .num w.msb (fracField w).toNat
  else .num w.msb ((2 ^ 23 + (fracField w).toNat) * 2 ^ ((expField w).toNat - 1))

/-- The encoding of a magnitude that binary32 can hold (at most 24 significant bits, below 2^277 units). -/
def magBits (mag : Nat) : Nat :=
  if mag < 2 ^ 23 then mag
  else
    let e := mag.log2 - 23
    (e + 1) * 2 ^ 23 + (mag / 2 ^ e - 2 ^ 23)

/-- The encoding of a value; a NaN takes the encoding `nan`. -/
def packWith (nan : F32) : FVal → F32
  | .num neg mag => BitVec.ofNat 32 (2 ^ 31 * neg.toNat + magBits mag)
  | .inf neg => BitVec.ofNat 32 (2 ^ 31 * neg.toNat + 0x7F800000)
  | .nan => nan

/-- The quotient `n / d` rounded to a natural number, to nearest, ties to even. -/
def roundEven (n d : Nat) : Nat :=
  if 2 * (n % d) < d then n / d
  else if d < 2 * (n % d) then n / d + 1
  else n / d + n / d % 2

/-- The exact magnitude `n / d` units rounded to binary32: 24 significant bits, no step finer than one unit, and
an infinity from 2^277 units (2^128) on (00_scope.md R8). -/
def roundMag (neg : Bool) (n d : Nat) : FVal :=
  let e := (n / d).log2 - 23
  let m := roundEven n (d * 2 ^ e) * 2 ^ e
  if m < 2 ^ 277 then .num neg m else .inf neg

/-- The signed number of units of a finite value. -/
def units (neg : Bool) (mag : Nat) : Int := if neg then -(mag : Int) else mag

/-- A value with its sign turned. -/
def fneg : FVal → FVal
  | .num neg mag => .num (!neg) mag
  | .inf neg => .inf (!neg)
  | .nan => .nan

/-- `fabs`: the sign cleared (00_scope.md R10). -/
def fabs : FVal → FVal
  | .num _ mag => .num false mag
  | .inf _ => .inf false
  | .nan => .nan

/-- `+f`. An exact sum of zero is `+0.0` unless both operands are negative zeros. -/
def fadd : FVal → FVal → FVal
  | .num a x, .num b y =>
    let z := units a x + units b y
    if z = 0 then .num (a && b) 0 else roundMag (decide (z < 0)) z.natAbs 1
  | .num _ _, .inf b => .inf b
  | .inf a, .num _ _ => .inf a
  | .inf a, .inf b => if a = b then .inf a else .nan
  | .nan, _ => .nan
  | _, .nan => .nan

/-- `−f`. -/
def fsub (x y : FVal) : FVal := fadd x (fneg y)

/-- `×f`. -/
def fmul : FVal → FVal → FVal
  | .num a x, .num b y => roundMag (a ^^ b) (x * y) (2 ^ 149)
  | .num a x, .inf b => if x = 0 then .nan else .inf (a ^^ b)
  | .inf a, .num b y => if y = 0 then .nan else .inf (a ^^ b)
  | .inf a, .inf b => .inf (a ^^ b)
  | .nan, _ => .nan
  | _, .nan => .nan

/-- `/f`. A number other than zero divided by a zero is an infinity (92_eei_decisions.md D29). -/
def fdiv : FVal → FVal → FVal
  | .num a x, .num b y =>
    if y = 0 then (if x = 0 then .nan else .inf (a ^^ b)) else roundMag (a ^^ b) (x * 2 ^ 149) y
  | .num a _, .inf b => .num (a ^^ b) 0
  | .inf a, .num b _ => .inf (a ^^ b)
  | .inf _, .inf _ => .nan
  | .nan, _ => .nan
  | _, .nan => .nan

/-- IEEE `<`: false when an operand is a NaN; the two zeros are equal. -/
def flt : FVal → FVal → Bool
  | .num a x, .num b y => decide (units a x < units b y)
  | .num _ _, .inf b => !b
  | .inf a, .num _ _ => a
  | .inf a, .inf b => a && !b
  | .nan, _ => false
  | _, .nan => false

/-- IEEE `≤`: false when an operand is a NaN. -/
def fle : FVal → FVal → Bool
  | .num a x, .num b y => decide (units a x ≤ units b y)
  | .num _ _, .inf b => !b
  | .inf a, .num _ _ => a
  | .inf a, .inf b => a || !b
  | .nan, _ => false
  | _, .nan => false

/-- `fclamp` (00_scope.md R10): a NaN fails both tests and is returned unchanged. -/
def fclamp (v lo hi : FVal) : FVal :=
  if flt v lo then lo else if flt hi v then hi else v

/-- `fclamp` on encodings, for a value that is stored: an operand inside the bounds (`−0.0` included) keeps its
encoding. -/
def clampBits (v lo hi : F32) : F32 :=
  if flt (toVal v) (toVal lo) then lo else if flt (toVal hi) (toVal v) then hi else v

/-- `f32(n)` for an integer `n` with `|n| ≤ 2^24`, exact (00_scope.md R10). -/
def ofInt (n : Int) : FVal := .num (decide (n < 0)) (n.natAbs * 2 ^ 149)

/-- `trunc` of a finite value: rounding toward zero (00_scope.md R10). -/
def trunc (neg : Bool) (mag : Nat) : Int := units neg (mag / 2 ^ 149)

/-- `iclamp` (00_scope.md R10). -/
def iclamp (n lo hi : Int) : Int := if n < lo then lo else if hi < n then hi else n

/-- `ToS16` (20_memory.md R32): truncation toward zero, saturated to an s16; NaN gives 0. -/
def toS16 : FVal → Half
  | .num neg mag => BitVec.ofInt 16 (iclamp (trunc neg mag) (-32768) 32767)
  | .inf neg => if neg then 0x8000#16 else 0x7FFF#16
  | .nan => 0#16

/-- `+0.0`. -/
def fzero : FVal := .num false 0

/-- The constants of the rules, by their encodings (44_parameter_controller.md R101). -/
def fHalf : FVal := toVal 0x3F000000#32
/-- `1.0`. -/
def fOne : FVal := toVal 0x3F800000#32
/-- `2.0`. -/
def fTwo : FVal := toVal 0x40000000#32
/-- `4.0`. -/
def fFour : FVal := toVal 0x40800000#32
/-- `10.0`. -/
def fTen : FVal := toVal 0x41200000#32
/-- `0.99`, that is 0.9900000095367431640625. -/
def f099 : FVal := toVal 0x3F7D70A4#32
/-- `0.995`, that is 0.99500000476837158203125. -/
def f0995 : FVal := toVal 0x3F7EB852#32
/-- `32768.0`. -/
def f32768 : FVal := toVal 0x47000000#32

/-- A sample or a raw gain in the float domain: `f32(n) /f 32768.0` (20_memory.md R33, 42_preset_scaler.md R81,
45_pipeline_and_host.md R116). -/
def scaled16 (q : Half) : FVal := fdiv (ofInt q.toInt) f32768

/-- A value as a stored sample: `ToS16(v ×f 32768.0)` (20_memory.md R34). -/
def quant16 (v : FVal) : Half := toS16 (fmul v f32768)

/-- The free NaN encoding of draw `n` (93_implementation_defined.md row 9; log 5). -/
def freeNaN (n : Nat) : F32 := nanOf (Config.freeNaNBits n)

/-- The encoding a value is stored with when `n` free NaNs have been drawn before. -/
def encodeAt (n : Nat) (v : FVal) : F32 := packWith (freeNaN n) v

/-- How many free NaNs storing a value draws. -/
def nanDraws : FVal → Nat
  | .nan => 1
  | _ => 0

/-- The encoding of a value that is no NaN in any reachable state (a gain, an input sample); a NaN would get a free
encoding of its own (log 6). -/
def pack (v : FVal) : F32 := packWith (nanOf Config.gainNaNBits) v

end Sys2Proof.Machine
end

