-- ==== Sys2Proof/Machine/Units.lean ====
section
/-! DEFINITION. The pieces State is made of, one structure for each unit of the CORE: the scaled presets and the
controls of the parameter_scaler, the rings of the half-band filters, the Work Area (10_state.md R13). -/

namespace Sys2Proof.Machine

/-- A scaled preset, `BASE` or `CUR`: the 34 entries of 10_state.md R19, in index order. A gain (`v…`) is a
binary32 encoding, an address or an offset a u16. -/
@[ext]
structure Scaled where
  dAPF1 : Half
  dAPF2 : Half
  vIIR : F32
  vCOMB1 : F32
  vCOMB2 : F32
  vCOMB3 : F32
  vCOMB4 : F32
  vWALL : F32
  vAPF1 : F32
  vAPF2 : F32
  dLSAME : Half
  dRSAME : Half
  mLSAME : Half
  mRSAME : Half
  dLDIFF : Half
  dRDIFF : Half
  mLDIFF : Half
  mRDIFF : Half
  mLCOMB1 : Half
  mRCOMB1 : Half
  mLCOMB2 : Half
  mRCOMB2 : Half
  mLCOMB3 : Half
  mRCOMB3 : Half
  mLCOMB4 : Half
  mRCOMB4 : Half
  mLAPF1 : Half
  mRAPF1 : Half
  mLAPF2 : Half
  mRAPF2 : Half
  vLIN : F32
  vRIN : F32
  vLOUT : F32
  vROUT : F32
deriving DecidableEq, Repr, Inhabited

/-- The live controls (10_state.md R17). `presetIdx` holds only legal indices (log 15). -/
@[ext]
structure Controls where
  presetIdx : Fin 6
  decay : F32
  mix : F32
  ingain : F32
  revlvl : F32
deriving DecidableEq, Repr, Inhabited

/-- One half-band state `HB[h]` (10_state.md R23): 64 slots and the write cursor, a u6. -/
@[ext]
structure Ring where
  buf : Vector F32 64
  pos : BitVec 6
deriving DecidableEq, Repr, Inhabited

/-- The four half-band states `HB[0..3]` (10_state.md R23). -/
@[ext]
structure Rings where
  downL : Ring
  downR : Ring
  upL : Ring
  upR : Ring
deriving DecidableEq, Repr, Inhabited

/-- A sample of the Work Area that is not zero: its address and its value (20_memory.md R36: the unit is a whole
16-bit sample, log 7). -/
abbrev Cell := Nat × Half

/-- The sample RAM `WA.ram`, in one canonical form (`Ram.wf`): an unlisted address reads as 0. -/
abbrev Ram := List Cell

/-- The Work Area (10_state.md R24). -/
@[ext]
structure WorkArea where
  ram : Ram
  size : Nat
  mask : Half
  base : Half
deriving DecidableEq, Repr

/-- What an abandoned command may leave in the state elements it writes: any value of each element
(93_implementation_defined.md row 13; log 10). The limits the spec sets on the elements themselves are kept: a preset
index from 0 to 5, a size that is a power of two up to 65536, samples at 16-bit addresses, `STATUS[31:8]` zero. -/
structure Leftover where
  rings : Rings
  cells : List (Half × Half)
  sizeLog : Fin 17
  mask : Half
  waBase : Half
  ctl : Controls
  base : Scaled
  cur : Scaled
  res0 : Word
  res1 : Word
  status : BitVec 8
deriving DecidableEq, Repr, Inhabited

end Sys2Proof.Machine

/-- FREE VALUE: what each abandoned command leaves, one for each draw (93_implementation_defined.md row 13; log 10). -/
opaque Sys2Proof.Config.leftover : Nat → Sys2Proof.Machine.Leftover
end

