-- ==== Sys2Proof/Machine/Scaling.lean ====
section
/-! DEFINITION. The pure functions of the parameter_scaler and the size selection of the Work Area: `Scale`,
`Derive`, `DecayScale`, `SizeFor`, and the entries of a preset by index (42_preset_scaler.md,
44_parameter_controller.md, 41_work_area.md R73, 10_state.md R18). -/

namespace Sys2Proof.Machine

/-- A raw gain scaled: `f32(raw) /f 32768.0` (42_preset_scaler.md R81, R82). -/
def gainOf (raw : Half) : F32 := pack (scaled16 raw)

/-- `Scale(P)` (42_preset_scaler.md R81): gains divided by 32768, addresses and offsets copied verbatim. -/
def scale (p : RawPreset) : Scaled where
  dAPF1 := p.dAPF1
  dAPF2 := p.dAPF2
  vIIR := gainOf p.vIIR
  vCOMB1 := gainOf p.vCOMB1
  vCOMB2 := gainOf p.vCOMB2
  vCOMB3 := gainOf p.vCOMB3
  vCOMB4 := gainOf p.vCOMB4
  vWALL := gainOf p.vWALL
  vAPF1 := gainOf p.vAPF1
  vAPF2 := gainOf p.vAPF2
  dLSAME := p.dLSAME
  dRSAME := p.dRSAME
  mLSAME := p.mLSAME
  mRSAME := p.mRSAME
  dLDIFF := p.dLDIFF
  dRDIFF := p.dRDIFF
  mLDIFF := p.mLDIFF
  mRDIFF := p.mRDIFF
  mLCOMB1 := p.mLCOMB1
  mRCOMB1 := p.mRCOMB1
  mLCOMB2 := p.mLCOMB2
  mRCOMB2 := p.mRCOMB2
  mLCOMB3 := p.mLCOMB3
  mRCOMB3 := p.mRCOMB3
  mLCOMB4 := p.mLCOMB4
  mRCOMB4 := p.mRCOMB4
  mLAPF1 := p.mLAPF1
  mRAPF1 := p.mRAPF1
  mLAPF2 := p.mLAPF2
  mRAPF2 := p.mRAPF2
  vLIN := gainOf p.vLIN
  vRIN := gainOf p.vRIN
  vLOUT := gainOf p.vLOUT
  vROUT := gainOf p.vROUT

/-- `MaxScale(w)` (44_parameter_controller.md R102). -/
def maxScale (w : FVal) : FVal := fclamp (fdiv f099 (fabs w)) fHalf fTen

/-- `DecayScale(d, w)` (44_parameter_controller.md R103). -/
def decayScale (d w : FVal) : FVal :=
  if fle d fHalf then fadd fHalf d
  else fadd fOne (fmul (fmul (fsub d fHalf) fTwo) (fsub (maxScale w) fOne))

/-- `CUR.vWALL` as `Derive` computes it from `BASE.vWALL` and the decay (42_preset_scaler.md R83). -/
def wallGain (d w : F32) : F32 :=
  pack (fclamp (fmul (toVal w) (decayScale (toVal d) (toVal w))) (fneg f0995) f0995)

/-- An input gain as `Derive` computes it: `B ×f (g ×f 2.0)` (42_preset_scaler.md R83). -/
def inputGain (g b : F32) : F32 := pack (fmul (toVal b) (fmul (toVal g) fTwo))

/-- An output gain as `Derive` computes it: `B ×f (l ×f 4.0)` (42_preset_scaler.md R83). -/
def outputGain (l b : F32) : F32 := pack (fmul (toVal b) (fmul (toVal l) fFour))

/-- `Derive(B, d, g, l)` (42_preset_scaler.md R83): every other field is the one of `B`. -/
def derive (b : Scaled) (d g l : F32) : Scaled :=
  { b with
    vWALL := wallGain d b.vWALL
    vLIN := inputGain g b.vLIN
    vRIN := inputGain g b.vRIN
    vLOUT := outputGain l b.vLOUT
    vROUT := outputGain l b.vROUT }

/-- `nextpow2(n)`, the least power of two `≥ n`, for `n ≥ 1` (00_scope.md R10). -/
def nextPow2 (n : Nat) : Nat := if n ≤ 1 then 1 else 2 ^ ((n - 1).log2 + 1)

/-- `SizeFor(bytes)` (41_work_area.md R73): two bytes a sample, at least one sample, the next power of two, at most
65536. -/
def sizeFor (bytes : Nat) : Nat := min (nextPow2 (max ((bytes + 1) / 2) 1)) 65536

/-- What `Resize(bytes)` leaves (41_work_area.md R75): the size and the mask set, every sample 0, the base 0. -/
def resized (bytes : Nat) : WorkArea where
  ram := []
  size := sizeFor bytes
  mask := BitVec.ofNat 16 (sizeFor bytes - 1)
  base := 0#16

/-- Entry `f` of a scaled preset as `GET` returns it (45_pipeline_and_host.md R113, 30_encoding.md R54): a gain's
encoding, an address zero-extended; no entry from 34 on. -/
def scaledEntry (s : Scaled) : Nat → Option Word
  | 0 => some (s.dAPF1.zeroExtend 32)
  | 1 => some (s.dAPF2.zeroExtend 32)
  | 2 => some s.vIIR
  | 3 => some s.vCOMB1
  | 4 => some s.vCOMB2
  | 5 => some s.vCOMB3
  | 6 => some s.vCOMB4
  | 7 => some s.vWALL
  | 8 => some s.vAPF1
  | 9 => some s.vAPF2
  | 10 => some (s.dLSAME.zeroExtend 32)
  | 11 => some (s.dRSAME.zeroExtend 32)
  | 12 => some (s.mLSAME.zeroExtend 32)
  | 13 => some (s.mRSAME.zeroExtend 32)
  | 14 => some (s.dLDIFF.zeroExtend 32)
  | 15 => some (s.dRDIFF.zeroExtend 32)
  | 16 => some (s.mLDIFF.zeroExtend 32)
  | 17 => some (s.mRDIFF.zeroExtend 32)
  | 18 => some (s.mLCOMB1.zeroExtend 32)
  | 19 => some (s.mRCOMB1.zeroExtend 32)
  | 20 => some (s.mLCOMB2.zeroExtend 32)
  | 21 => some (s.mRCOMB2.zeroExtend 32)
  | 22 => some (s.mLCOMB3.zeroExtend 32)
  | 23 => some (s.mRCOMB3.zeroExtend 32)
  | 24 => some (s.mLCOMB4.zeroExtend 32)
  | 25 => some (s.mRCOMB4.zeroExtend 32)
  | 26 => some (s.mLAPF1.zeroExtend 32)
  | 27 => some (s.mRAPF1.zeroExtend 32)
  | 28 => some (s.mLAPF2.zeroExtend 32)
  | 29 => some (s.mRAPF2.zeroExtend 32)
  | 30 => some s.vLIN
  | 31 => some s.vRIN
  | 32 => some s.vLOUT
  | 33 => some s.vROUT
  | _ => none

/-- Raw field `f` of a preset as `GET` returns it (45_pipeline_and_host.md R113, 30_encoding.md R54): an s16 gain
sign-extended, the others zero-extended; no field from 35 on. -/
def rawEntry (p : RawPreset) : Nat → Option Word
  | 0 => some (p.dAPF1.zeroExtend 32)
  | 1 => some (p.dAPF2.zeroExtend 32)
  | 2 => some (p.vIIR.signExtend 32)
  | 3 => some (p.vCOMB1.signExtend 32)
  | 4 => some (p.vCOMB2.signExtend 32)
  | 5 => some (p.vCOMB3.signExtend 32)
  | 6 => some (p.vCOMB4.signExtend 32)
  | 7 => some (p.vWALL.signExtend 32)
  | 8 => some (p.vAPF1.signExtend 32)
  | 9 => some (p.vAPF2.signExtend 32)
  | 10 => some (p.dLSAME.zeroExtend 32)
  | 11 => some (p.dRSAME.zeroExtend 32)
  | 12 => some (p.mLSAME.zeroExtend 32)
  | 13 => some (p.mRSAME.zeroExtend 32)
  | 14 => some (p.dLDIFF.zeroExtend 32)
  | 15 => some (p.dRDIFF.zeroExtend 32)
  | 16 => some (p.mLDIFF.zeroExtend 32)
  | 17 => some (p.mRDIFF.zeroExtend 32)
  | 18 => some (p.mLCOMB1.zeroExtend 32)
  | 19 => some (p.mRCOMB1.zeroExtend 32)
  | 20 => some (p.mLCOMB2.zeroExtend 32)
  | 21 => some (p.mRCOMB2.zeroExtend 32)
  | 22 => some (p.mLCOMB3.zeroExtend 32)
  | 23 => some (p.mRCOMB3.zeroExtend 32)
  | 24 => some (p.mLCOMB4.zeroExtend 32)
  | 25 => some (p.mRCOMB4.zeroExtend 32)
  | 26 => some (p.mLAPF1.zeroExtend 32)
  | 27 => some (p.mRAPF1.zeroExtend 32)
  | 28 => some (p.mLAPF2.zeroExtend 32)
  | 29 => some (p.mRAPF2.zeroExtend 32)
  | 30 => some (p.vLIN.signExtend 32)
  | 31 => some (p.vRIN.signExtend 32)
  | 32 => some (p.vLOUT.signExtend 32)
  | 33 => some (p.vROUT.signExtend 32)
  | 34 => some (p.sizeBytes.zeroExtend 32)
  | _ => none

end Sys2Proof.Machine
end

