-- ==== Sys2Proof/Machine/State.lean ====
section
/-! DEFINITION. The state of one CORE instance (10_state.md R13 to R25, 30_encoding.md R45), its value after reset
(70_reset_and_hazards.md R138), and the reasons a step can stop. -/

namespace Sys2Proof.Machine

/-- What the host drives on the input signals in one step (30_encoding.md R45): `rst_n`, `cmd_valid`, and `cmd`,
`opa`, `opb`. A step reaches from a transfer to its response, so `rst_n` may also fall inside it: `rstFalls` says that
`rst_n`, high when the step begins, falls before the step is over (70_reset_and_hazards.md R139; log 10). -/
structure HostDrive where
  rstN : Bool
  cmdValid : Bool
  words : CmdWords
  rstFalls : Bool
deriving DecidableEq, Repr

/-- The machine never stops with a fault: "No operation of the source raises an error", and a command error is a
next state (60_exceptions.md R125, R128; log 13). No constructor: nothing raises a fault. -/
inductive Fault where
deriving DecidableEq, Repr

/-- Why a step is refused. -/
inductive Refusal where
  /-- Raised by an arm of `exec` whose instruction has no meaning yet; safe. No arm raises it now. -/
  | notModelled (mnemonic : String)
deriving DecidableEq, Repr

/-- All state the spec gives the machine, and two fields of the model's own: `host` and `freeCount`. -/
@[ext]
structure State where
  /-- `HB[0..3]` (10_state.md R23). -/
  hb : Rings
  /-- `WA.ram`, `WA_SIZE`, `WA_MASK`, `WA_BASE` (10_state.md R24). -/
  wa : WorkArea
  /-- `PRESET_IDX`, `DECAY`, `MIX`, `INGAIN`, `REVLVL` (10_state.md R17). -/
  ctl : Controls
  /-- `BASE` (10_state.md R19). -/
  base : Scaled
  /-- `CUR` (10_state.md R19). -/
  cur : Scaled
  /-- `STATUS` (10_state.md R16). -/
  status : Word
  /-- MODEL'S OWN (log 1): the input samples the host will drive, the next one first. -/
  host : List HostDrive
  /-- `cmd_ready` (30_encoding.md R45): 0 from the fall of `rst_n` until the reset sequence has run. -/
  cmdReady : Bool
  /-- `rsp_valid` (30_encoding.md R45): the last step completed a command. -/
  rspValid : Bool
  /-- `rsp_err` (30_encoding.md R45): the command completed in the last step raised an error. -/
  rspErr : Bool
  /-- `RES0` (10_state.md R15). -/
  res0 : Word
  /-- `RES1` (10_state.md R15). -/
  res1 : Word
  /-- MODEL'S OWN (log 5, log 10): how many free values have been drawn. -/
  freeCount : Nat
deriving DecidableEq, Repr

/-- The controls after reset (70_reset_and_hazards.md R138). -/
def Controls.reset : Controls := ⟨0, 0x3F000000#32, 0x3F000000#32, 0x3F000000#32, 0x3F000000#32⟩

/-- A ring after reset: `+0.0` in every slot, the cursor 0 (70_reset_and_hazards.md R138). -/
def Ring.reset : Ring := ⟨Vector.replicate 64 0#32, 0#6⟩

/-- The four rings after reset. -/
def Rings.reset : Rings := ⟨Ring.reset, Ring.reset, Ring.reset, Ring.reset⟩

/-- The machine right after reset (70_reset_and_hazards.md R138) on a configuration. -/
def State.resetOf (p : Params) : State where
  host := []
  cmdReady := true
  rspValid := false
  rspErr := false
  res0 := 0#32
  res1 := 0#32
  status := 0#32
  ctl := Controls.reset
  base := scale (p.preset 0)
  cur := derive (scale (p.preset 0)) 0x3F000000#32 0x3F000000#32 0x3F000000#32
  hb := Rings.reset
  wa := resized (p.preset 0).sizeBytes.toNat
  freeCount := 0

/-- The machine right after reset (70_reset_and_hazards.md R138). -/
def State.reset : State := State.resetOf Config.params

/-- The display name of the selected preset (42_preset_scaler.md R87). -/
def State.presetName (s : State) : String := Config.presetName s.ctl.presetIdx

end Sys2Proof.Machine
end

