-- ==== Sys2Proof/Machine/Flags.lean ====
section
/-! DEFINITION. `STATUS` (10_state.md R16): the command errors, their codes and bits (60_exceptions.md R126), and what
recording one leaves in the register (R128). -/

namespace Sys2Proof.Machine

/-- The command errors (60_exceptions.md R126). -/
inductive CmdError where
  | illOpc
  | rsv
  | badItem
  | nonfinite
deriving DecidableEq, Repr

/-- The cause code, 1 to 4 (60_exceptions.md R126). -/
def causeCode : CmdError → BitVec 4
  | .illOpc => 1#4
  | .rsv => 2#4
  | .badItem => 3#4
  | .nonfinite => 4#4

/-- The sticky `STATUS` bit of a cause, as a word with that bit set (60_exceptions.md R126). -/
def causeBit : CmdError → Word
  | .illOpc => 1#32
  | .rsv => 2#32
  | .badItem => 4#32
  | .nonfinite => 8#32

/-- `LAST_CAUSE`, `STATUS[7:4]` (10_state.md R16). -/
def lastCause (status : Word) : BitVec 4 := status.extractLsb' 4 4

/-- `STATUS` after an error: its sticky bit set, `LAST_CAUSE` overwritten, every other bit kept (60_exceptions.md R128). -/
def statusAfter (e : CmdError) (status : Word) : Word :=
  (status &&& 0xFFFFFF0F#32) ||| causeBit e ||| (causeCode e).zeroExtend 32 <<< 4

/-- The error of a rejected command word (30_encoding.md R50). -/
def rejectCause : Reject → CmdError
  | .illOpc => .illOpc
  | .rsv => .rsv

end Sys2Proof.Machine
end

