-- ==== Sys2Proof/Machine/Operands.lean ====
section
/-! DEFINITION. The operand forms (30_encoding.md R48, R51 to R54): immediates as integers, rings by channel, frames and
their samples. -/

namespace Sys2Proof.Machine

/-- `zext_16(IMM)`: the offset of `WA_RD` and `WA_WR`, the count of `WA_ADV`, the byte requirement of `WA_RESIZE`, the
item of `GET` (30_encoding.md R51). -/
def zextImm (imm : Half) : Nat := imm.toNat

/-- `sext_16(IMM)`: the requested index of `PS_APPLY` (30_encoding.md R51). -/
def sextImm (imm : Half) : Int := imm.toInt

/-- The requested preset clamped to 0..5 (42_preset_scaler.md R85). -/
def presetOf (imm : Half) : Fin 6 := Fin.ofNat 6 (iclamp (sextImm imm) 0 5).toNat

/-- The decimator's ring of a channel: `h = CH` (40_halfband.md R66). -/
def downRing : Channel → RingSel
  | .left => .downL
  | .right => .downR

/-- The interpolator's ring of a channel: `h = 2 + CH` (40_halfband.md R69). -/
def upRing : Channel → RingSel
  | .left => .upL
  | .right => .upR

/-- The left sample of a frame, bits 15:0 (30_encoding.md R53). -/
def frameL (f : Word) : Half := f.extractLsb' 0 16

/-- The right sample of a frame, bits 31:16 (30_encoding.md R53). -/
def frameR (f : Word) : Half := f.extractLsb' 16 16

/-- A frame from its samples: `R` in bits 31:16, `L` in bits 15:0 (30_encoding.md R53). -/
def frameOf (r l : Half) : Word := r.zeroExtend 32 <<< 16 ||| l.zeroExtend 32

/-- An integer result, zero-extended to 32 bits (30_encoding.md R54). -/
def intResult (n : Nat) : Word := BitVec.ofNat 32 n

end Sys2Proof.Machine
end

