-- ==== Sys2Proof/Machine/Ops.lean ====
section
/-! DEFINITION. The named operations the meanings share: the sample RAM, the Work Area primitives, the ring primitives
and tap sums, results, the reset sequence, and raising a command error. -/

namespace Sys2Proof.Machine

/-! ### The sample RAM -/

/-- What an address holds; an unlisted address holds 0 (10_state.md R24, 70_reset_and_hazards.md R138). -/
def Ram.read : Ram → Nat → Half
  | [], _ => 0#16
  | (b, q) :: rest, a => if a = b then q else Ram.read rest a

/-- The RAM with one sample changed, in canonical form: cells in rising order, none of value 0. -/
def Ram.write : Ram → Nat → Half → Ram
  | [], a, q => if q = 0#16 then [] else [(a, q)]
  | (b, r) :: rest, a, q =>
    if a < b then (if q = 0#16 then (b, r) :: rest else (a, q) :: (b, r) :: rest)
    else if a = b then (if q = 0#16 then rest else (a, q) :: rest)
    else (b, r) :: Ram.write rest a q

/-- Whether every cell lies at `lo` or above, the addresses rise strictly, and no cell is 0. -/
def Ram.wfFrom (lo : Nat) : Ram → Bool
  | [] => true
  | (a, q) :: rest => decide (lo ≤ a) && q != 0#16 && Ram.wfFrom (a + 1) rest

/-- The canonical form of the RAM: addresses strictly rising, no cell equal to what an unlisted address reads as. -/
def Ram.wf (m : Ram) : Bool := Ram.wfFrom 0 m

/-! ### The Work Area -/

/-- `EA(off) = (WA_BASE + off) & WA_MASK` (20_memory.md R28). The mask has no bit above 15, so the AND on unbounded
two's complement integers is the AND of the low 16 bits (log 8). -/
def WorkArea.ea (w : WorkArea) (off : Int) : Nat :=
  (BitVec.ofInt 16 (w.base.toNat + off) &&& w.mask).toNat

/-- `WARead(a)` (20_memory.md R30). -/
def WorkArea.read (w : WorkArea) (a : Nat) : Half := w.ram.read a

/-- `WAWrite(a, q)` (20_memory.md R31). -/
def WorkArea.write (w : WorkArea) (a : Nat) (q : Half) : WorkArea := { w with ram := w.ram.write a q }

/-- `RR(off)` (20_memory.md R33). -/
def WorkArea.rr (w : WorkArea) (off : Int) : FVal := scaled16 (w.read (w.ea off))

/-- `WR(off, v)` (20_memory.md R34). -/
def WorkArea.wr (w : WorkArea) (off : Int) (v : FVal) : WorkArea := w.write (w.ea off) (quant16 v)

/-- `Advance(n)` (41_work_area.md R76). -/
def WorkArea.advance (w : WorkArea) (n : Nat) : WorkArea := { w with base := BitVec.ofNat 16 (w.ea n) }

/-! ### The rings and the half-band filters -/

/-- A slot of a ring by its absolute index (45_pipeline_and_host.md R115). -/
def Ring.slot (r : Ring) (i : BitVec 6) : F32 := r.buf[i.toNat]'i.isLt

/-- `Push(h, v)`: write at the cursor, then advance it modulo 64 (40_halfband.md R61). -/
def Ring.push (r : Ring) (v : F32) : Ring := ⟨r.buf.set r.pos.toNat v r.pos.isLt, r.pos + 1#6⟩

/-- `Win(h, k)`, `k = 0` the oldest of the 39 most recent samples (40_halfband.md R62). -/
def Ring.win (r : Ring) (k : Nat) : F32 := r.slot (r.pos - 39#6 + BitVec.ofNat 6 k)

/-- The ring a selector names (30_encoding.md R48). -/
def Rings.get (b : Rings) : RingSel → Ring
  | .downL => b.downL
  | .downR => b.downR
  | .upL => b.upL
  | .upR => b.upR

/-- The rings with one of them changed. -/
def Rings.put (b : Rings) (h : RingSel) (r : Ring) : Rings :=
  match h with
  | .downL => { b with downL := r }
  | .downR => { b with downR := r }
  | .upL => { b with upL := r }
  | .upR => { b with upR := r }

/-- The taps of `FullSum`: `k = 0 .. 38` (40_halfband.md R63). -/
def fullTaps : List Nat := List.range 39

/-- The taps of `EvenSum`: `k = 0, 2, .., 38` (40_halfband.md R63). -/
def evenTaps : List Nat := (List.range 20).map fun j => 2 * j

/-- The taps of `OddSum`: `k = 1, 3, .., 37` (40_halfband.md R63). -/
def oddTaps : List Nat := (List.range 19).map fun j => 2 * j + 1

/-- A tap sum, accumulated from `+0.0` in the order of the taps; every tap is multiplied, zero or not
(40_halfband.md R63, R65). -/
def tapSum (coeff : Nat → F32) (taps : List Nat) (r : Ring) : FVal :=
  taps.foldl (fun acc k => fadd acc (fmul (toVal (coeff k)) (toVal (r.win k)))) fzero

/-- `Decimate(h, x0, x1)`: the ring after both pushes (40_halfband.md R64). -/
def decimateRing (r : Ring) (x0 x1 : F32) : Ring := (r.push x0).push x1

/-- `Decimate(h, x0, x1)`: the result (40_halfband.md R64). -/
def decimateOut (coeff : Nat → F32) (r : Ring) (x0 x1 : F32) : FVal :=
  tapSum coeff fullTaps (decimateRing r x0 x1)

/-- `Interpolate(h, y)`: the ring after the push of `y` and of the stuffed `+0.0` (40_halfband.md R67). -/
def interpolateRing (r : Ring) (y : F32) : Ring := (r.push y).push 0#32

/-- `Interpolate(h, y)`: the earlier output `s0` (40_halfband.md R67). -/
def interpolateOut0 (coeff : Nat → F32) (r : Ring) (y : F32) : FVal :=
  fmul (tapSum coeff evenTaps (r.push y)) fTwo

/-- `Interpolate(h, y)`: the later output `s1` (40_halfband.md R67). -/
def interpolateOut1 (coeff : Nat → F32) (r : Ring) (y : F32) : FVal :=
  fmul (tapSum coeff oddTaps (interpolateRing r y)) fTwo

/-! ### Updates of the state, one name for each -/

/-- The state with another input stream. -/
def State.withHost (s : State) (h : List HostDrive) : State := { s with host := h }

/-- The state with the output lines `cmd_ready`, `rsp_valid`, `rsp_err` driven. -/
def State.withLines (s : State) (ready valid err : Bool) : State :=
  { s with cmdReady := ready, rspValid := valid, rspErr := err }

/-- The state with `STATUS` written. -/
def State.withStatus (s : State) (v : Word) : State := { s with status := v }

/-- The state with `RES0` written as a word. -/
def State.withRes0 (s : State) (v : Word) : State := { s with res0 := v }

/-- The state with `RES1` written as a word. -/
def State.withRes1 (s : State) (v : Word) : State := { s with res1 := v }

/-- The state with a value in `RES0`; a NaN gets a free encoding (log 5). -/
def State.withRes0Val (s : State) (v : FVal) : State :=
  { s with res0 := encodeAt s.freeCount v, freeCount := s.freeCount + nanDraws v }

/-- The state with a value in `RES1`; a NaN gets a free encoding (log 5). -/
def State.withRes1Val (s : State) (v : FVal) : State :=
  { s with res1 := encodeAt s.freeCount v, freeCount := s.freeCount + nanDraws v }

/-- The state with the controls written. -/
def State.withCtl (s : State) (c : Controls) : State := { s with ctl := c }

/-- The state with `BASE` written. -/
def State.withBase (s : State) (b : Scaled) : State := { s with base := b }

/-- The state with `CUR` written. -/
def State.withCur (s : State) (c : Scaled) : State := { s with cur := c }

/-- The state with one ring replaced. -/
def State.withRing (s : State) (h : RingSel) (r : Ring) : State := { s with hb := s.hb.put h r }

/-- The state with every ring replaced. -/
def State.withRings (s : State) (b : Rings) : State := { s with hb := b }

/-- The state with the Work Area replaced. -/
def State.withWa (s : State) (w : WorkArea) : State := { s with wa := w }

/-! ### Shared steps of the meanings -/

/-- `CUR <- Derive(BASE, DECAY, INGAIN, REVLVL)` (42_preset_scaler.md R86). -/
def State.rederive (s : State) : State :=
  s.withCur (derive s.base s.ctl.decay s.ctl.ingain s.ctl.revlvl)

/-- The steps of `PS_APPLY` for a preset index already clamped (42_preset_scaler.md R85). The intermediate
`CUR <- BASE` is overwritten in the same command and cannot be observed. -/
def State.applyPreset (p : Params) (i : Fin 6) (s : State) : State :=
  (((s.withCtl { s.ctl with presetIdx := i }).withBase (scale (p.preset i))).withWa
    (resized (p.preset i).sizeBytes.toNat)).rederive

/-- The reset sequence (70_reset_and_hazards.md R137), run by `INIT` and at the release of `rst_n`. -/
def State.resetSequence (p : Params) (s : State) : State :=
  ((((((s.withStatus 0#32).withRes0 0#32).withRes1 0#32).withRings Rings.reset).withCtl
    Controls.reset).applyPreset p 0)

/-- A setter's operand clamped to [0, 1]: `fclamp(v, 0.0, 1.0)` (44_parameter_controller.md R104). -/
def clamp01 (v : F32) : F32 := clampBits v 0#32 0x3F800000#32

/-! ### Abandoning a command -/

/-- The state elements a command writes (10_state.md R26), with the half-band states as a list. -/
structure Touched where
  rings : List RingSel := []
  ram : Bool := false
  waBase : Bool := false
  waSize : Bool := false
  presetIdx : Bool := false
  decay : Bool := false
  mix : Bool := false
  ingain : Bool := false
  revlvl : Bool := false
  base : Bool := false
  cur : Bool := false
  res0 : Bool := false
  res1 : Bool := false
  status : Bool := false
deriving DecidableEq, Repr

/-- The reset sequence writes every element (70_reset_and_hazards.md R137). -/
def Touched.all : Touched where
  rings := [.downL, .downR, .upL, .upR]
  ram := true
  waBase := true
  waSize := true
  presetIdx := true
  decay := true
  mix := true
  ingain := true
  revlvl := true
  base := true
  cur := true
  res0 := true
  res1 := true
  status := true

/-- The RAM that holds the given samples, a later one of an address in place of an earlier one. -/
def Ram.ofCells (cells : List (Half × Half)) : Ram :=
  cells.foldl (fun m c => m.write c.1.toNat c.2) []

/-- The Work Area after an abandoned command. -/
def WorkArea.disturbed (t : Touched) (l : Leftover) (w : WorkArea) : WorkArea where
  ram := if t.ram then Ram.ofCells l.cells else w.ram
  size := if t.waSize then 2 ^ l.sizeLog.val else w.size
  mask := if t.waSize then l.mask else w.mask
  base := if t.waBase then l.waBase else w.base

/-- The controls after an abandoned command. -/
def Controls.disturbed (t : Touched) (l : Leftover) (c : Controls) : Controls where
  presetIdx := if t.presetIdx then l.ctl.presetIdx else c.presetIdx
  decay := if t.decay then l.ctl.decay else c.decay
  mix := if t.mix then l.ctl.mix else c.mix
  ingain := if t.ingain then l.ctl.ingain else c.ingain
  revlvl := if t.revlvl then l.ctl.revlvl else c.revlvl

/-- The rings after an abandoned command. -/
def Rings.disturbed (t : Touched) (l : Leftover) (b : Rings) : Rings :=
  t.rings.foldl (fun b h => b.put h (l.rings.get h)) b

/-- A command abandoned by the fall of `rst_n` (70_reset_and_hazards.md R139): no response, `cmd_ready` 0, and any value
in the elements the command writes (93_implementation_defined.md row 13; log 10); every other element is held. -/
def State.abandon (t : Touched) (s : State) : State :=
  let l := Config.leftover s.freeCount
  { s with
    hb := s.hb.disturbed t l
    wa := s.wa.disturbed t l
    ctl := s.ctl.disturbed t l
    base := if t.base then l.base else s.base
    cur := if t.cur then l.cur else s.cur
    status := if t.status then l.status.zeroExtend 32 else s.status
    cmdReady := false
    rspValid := false
    rspErr := false
    res0 := if t.res0 then l.res0 else s.res0
    res1 := if t.res1 then l.res1 else s.res1
    freeCount := s.freeCount + 1 }

/-! ### Raising a command error -/

/-- `raise CmdError(cause)` (60_exceptions.md R128): the sticky bit and `LAST_CAUSE` of `STATUS`, and `rsp_err` on this
command's response; nothing else. There is no handler and so no saved register and no mode; R129 gives no return. -/
def State.raise (e : CmdError) (s : State) : State :=
  { s with status := statusAfter e s.status, rspErr := true }

/-! ### The command interface -/

/-- A command is transferred: its response is valid, and without error unless the command raises one
(30_encoding.md R45, 60_exceptions.md R128). -/
def State.accept (s : State) : State := s.withLines s.cmdReady true false

/-- No command is transferred: the state is held and there is no response (60_exceptions.md R136; log 11). -/
def State.idle (s : State) : State := s.withLines s.cmdReady false false

/-- `rst_n` is low: no command is accepted and none is answered (70_reset_and_hazards.md R139; log 9). -/
def State.holdReset (s : State) : State := s.withLines false false false

/-- `rst_n` has been released: the reset sequence runs, then `cmd_ready` is 1 (70_reset_and_hazards.md R137, R138). -/
def State.releaseReset (p : Params) (s : State) : State := (s.resetSequence p).withLines true false false

end Sys2Proof.Machine
end

