-- ==== Sys2Proof/Machine/HalfBand.lean ====
section
/-! DEFINITION. The meanings of `HB_DEC` and `HB_INT` (40_halfband.md). -/

namespace Sys2Proof.Machine

/-- `HB_DEC` on a configuration (40_halfband.md R66). -/
def hbDec (p : Params) (ch : Channel) (x0 x1 : F32) (s : State) : State :=
  if isFinite x0 && isFinite x1 then
    (s.withRing (downRing ch) (decimateRing (s.hb.get (downRing ch)) x0 x1)).withRes0Val
      (decimateOut p.coeff (s.hb.get (downRing ch)) x0 x1)
  else s.raise .nonfinite

/-- `HB_INT` on a configuration (40_halfband.md R69). -/
def hbInt (p : Params) (ch : Channel) (y : F32) (s : State) : State :=
  if isFinite y then
    ((s.withRing (upRing ch) (interpolateRing (s.hb.get (upRing ch)) y)).withRes0Val
      (interpolateOut0 p.coeff (s.hb.get (upRing ch)) y)).withRes1Val
      (interpolateOut1 p.coeff (s.hb.get (upRing ch)) y)
  else s.raise .nonfinite

/-- `HB_DEC ch, x0, x1` (40_halfband.md R66). -/
def execHbDec (ch : Channel) (x0 x1 : F32) (s : State) : Host.Outcome State Fault Refusal :=
  .next (hbDec Config.params ch x0 x1 s)

/-- `HB_INT ch, y` (40_halfband.md R69). -/
def execHbInt (ch : Channel) (y : F32) (s : State) : Host.Outcome State Fault Refusal :=
  .next (hbInt Config.params ch y s)

end Sys2Proof.Machine
end

