-- ==== Sys2Proof/Machine/ParamScaler.lean ====
section
/-! DEFINITION. The meanings of `PS_APPLY`, `PS_DERIVE` (42_preset_scaler.md) and of the four setters
(44_parameter_controller.md). A NaN operand of a setter changes nothing and raises nothing (R104). -/

namespace Sys2Proof.Machine

/-- `PS_APPLY idx` (42_preset_scaler.md R85). -/
def execPsApply (idx : Half) (s : State) : Host.Outcome State Fault Refusal :=
  .next (s.applyPreset Config.params (presetOf idx))

/-- `PS_DERIVE` (42_preset_scaler.md R86). -/
def execPsDerive (s : State) : Host.Outcome State Fault Refusal := .next s.rederive

/-- `PS_DECAY v` (44_parameter_controller.md R105). -/
def execPsDecay (v : F32) (s : State) : Host.Outcome State Fault Refusal :=
  if isNaN v then .next s else .next (s.withCtl { s.ctl with decay := clamp01 v }).rederive

/-- `PS_INGAIN v` (44_parameter_controller.md R106). -/
def execPsIngain (v : F32) (s : State) : Host.Outcome State Fault Refusal :=
  if isNaN v then .next s else .next (s.withCtl { s.ctl with ingain := clamp01 v }).rederive

/-- `PS_REVLVL v` (44_parameter_controller.md R107). -/
def execPsRevlvl (v : F32) (s : State) : Host.Outcome State Fault Refusal :=
  if isNaN v then .next s else .next (s.withCtl { s.ctl with revlvl := clamp01 v }).rederive

/-- `PS_MIX v` (44_parameter_controller.md R108): `CUR` is not touched. -/
def execPsMix (v : F32) (s : State) : Host.Outcome State Fault Refusal :=
  if isNaN v then .next s else .next (s.withCtl { s.ctl with mix := clamp01 v })

end Sys2Proof.Machine
end

