-- ==== Sys2Proof/Machine/Reverb.lean ====
section
/-! DEFINITION. The reverb tick and the meaning of `RV_TICK` (43_reverb_tick.md). The gains and addresses are those of
`CUR`; every offset is an integer, so `m − 1` and `m − d` may be negative (20_memory.md R28). -/

namespace Sys2Proof.Machine

/-- A tick's outcome: the Work Area after it and its two outputs. -/
structure TickResult where
  wa : WorkArea
  outL : FVal
  outR : FVal
deriving DecidableEq, Repr

/-- One reflection of steps 1 and 2 (43_reverb_tick.md R90, R92): the feedback read at `d`, the prior output at
`m − 1`, the one-pole recursion, the write at `m`. -/
def reflect (wall iir inp : FVal) (d m : Half) (w : WorkArea) : WorkArea :=
  let fb := w.rr d.toNat
  let pv := w.rr ((m.toNat : Int) - 1)
  w.wr m.toNat (fadd (fmul (fsub (fadd inp (fmul fb wall)) pv) iir) pv)

/-- One channel of the comb bank, step 3 (43_reverb_tick.md R93). -/
def combSum (c : Scaled) (m1 m2 m3 m4 : Half) (w : WorkArea) : FVal :=
  fadd (fadd (fadd (fmul (toVal c.vCOMB1) (w.rr m1.toNat)) (fmul (toVal c.vCOMB2) (w.rr m2.toNat)))
    (fmul (toVal c.vCOMB3) (w.rr m3.toNat))) (fmul (toVal c.vCOMB4) (w.rr m4.toNat))

/-- The Work Area after one all-pass stage on the input `x` (43_reverb_tick.md R94, R95): the delayed read at `m − d`,
the write at `m`. -/
def allpassArea (g x : FVal) (m d : Half) (w : WorkArea) : WorkArea :=
  w.wr m.toNat (fsub x (fmul g (w.rr ((m.toNat : Int) - d.toNat))))

/-- The output of one all-pass stage (43_reverb_tick.md R94, R95): the written sample is read back from `m`. -/
def allpassOut (g x : FVal) (m d : Half) (w : WorkArea) : FVal :=
  fadd (fmul ((allpassArea g x m d w).rr m.toNat) g) (w.rr ((m.toNat : Int) - d.toNat))

/-- Steps 1 and 2, the four reflections in order (43_reverb_tick.md R89, R90, R92); the cross-side feedback of a channel
is read at the other channel's offset. -/
def reflections (c : Scaled) (xL xR : FVal) (w : WorkArea) : WorkArea :=
  let lin := fmul xL (toVal c.vLIN)
  let rin := fmul xR (toVal c.vRIN)
  let wall := toVal c.vWALL
  let iir := toVal c.vIIR
  let w1 := reflect wall iir lin c.dLSAME c.mLSAME w
  let w2 := reflect wall iir rin c.dRSAME c.mRSAME w1
  let w3 := reflect wall iir lin c.dRDIFF c.mLDIFF w2
  reflect wall iir rin c.dLDIFF c.mRDIFF w3

/-- `Tick(xL, xR)` (43_reverb_tick.md R98): steps 0 to 7 in order. -/
def tick (c : Scaled) (xL xR : FVal) (w : WorkArea) : TickResult :=
  let w4 := reflections c xL xR w
  let cL := combSum c c.mLCOMB1 c.mLCOMB2 c.mLCOMB3 c.mLCOMB4 w4
  let cR := combSum c c.mRCOMB1 c.mRCOMB2 c.mRCOMB3 c.mRCOMB4 w4
  let g1 := toVal c.vAPF1
  let g2 := toVal c.vAPF2
  let aL := allpassOut g1 cL c.mLAPF1 c.dAPF1 w4
  let w5 := allpassArea g1 cL c.mLAPF1 c.dAPF1 w4
  let aR := allpassOut g1 cR c.mRAPF1 c.dAPF1 w5
  let w6 := allpassArea g1 cR c.mRAPF1 c.dAPF1 w5
  let bL := allpassOut g2 aL c.mLAPF2 c.dAPF2 w6
  let w7 := allpassArea g2 aL c.mLAPF2 c.dAPF2 w6
  let bR := allpassOut g2 aR c.mRAPF2 c.dAPF2 w7
  let w8 := allpassArea g2 aR c.mRAPF2 c.dAPF2 w7
  ⟨w8.advance 1, fmul bL (toVal c.vLOUT), fmul bR (toVal c.vROUT)⟩

/-- `RV_TICK xL, xR` (43_reverb_tick.md R100). -/
def execRvTick (xL xR : F32) (s : State) : Host.Outcome State Fault Refusal :=
  if isFinite xL && isFinite xR then
    .next (((s.withWa (tick s.cur (toVal xL) (toVal xR) s.wa).wa).withRes0Val
      (tick s.cur (toVal xL) (toVal xR) s.wa).outL).withRes1Val
      (tick s.cur (toVal xL) (toVal xR) s.wa).outR)
  else .next (s.raise .nonfinite)

end Sys2Proof.Machine
end

