-- ==== Sys2Proof/Machine/Pipeline.lean ====
section
/-! DEFINITION. The meanings of `NOP`, `INIT`, `GET`, `GET_HB` and `PROCESS_PAIR` (45_pipeline_and_host.md). -/

namespace Sys2Proof.Machine

/-- The value `GET` returns for an item, none for an undefined one (45_pipeline_and_host.md R113). -/
def readItem (p : Params) (s : State) (item : Nat) : Option Word :=
  match item / 256 with
  | 0 =>
    match item with
    | 0x00 => some (intResult s.ctl.presetIdx.val)
    | 0x01 => some s.ctl.decay
    | 0x02 => some s.ctl.mix
    | 0x03 => some s.ctl.ingain
    | 0x04 => some s.ctl.revlvl
    | 0x05 => some (intResult Config.numPresets)
    | 0x06 => some (intResult s.wa.size)
    | 0x07 => some (intResult s.wa.base.toNat)
    | 0x08 => some (intResult s.hb.downL.pos.toNat)
    | 0x09 => some (intResult s.hb.downR.pos.toNat)
    | 0x0A => some (intResult s.hb.upL.pos.toNat)
    | 0x0B => some (intResult s.hb.upR.pos.toNat)
    | 0x0C => some s.status
    | _ => none
  | 1 => scaledEntry s.base (item % 256)
  | 2 => scaledEntry s.cur (item % 256)
  | 3 => rawEntry (p.preset s.ctl.presetIdx) (item % 256)
  | _ => none

/-- `GET` on a configuration (45_pipeline_and_host.md R114). -/
def getItem (p : Params) (item : Half) (s : State) : State :=
  match readItem p s (zextImm item) with
  | some v => s.withRes0 v
  | none => s.raise .badItem

/-- One output sample from the dry and the wet value, at the mix `m` (45_pipeline_and_host.md R117). -/
def mixQ (m dry wet : FVal) : Half :=
  quant16 (fclamp (fadd (fmul dry (fsub fOne m)) (fmul wet m)) (fneg fOne) fOne)

/-- `PROCESS_PAIR` on a configuration (45_pipeline_and_host.md R119). The two tick outputs are pushed into the up rings
as encodings; a NaN among them gets a free one (log 5). -/
def processPair (p : Params) (f0 f1 : Word) (s : State) : State :=
  let l0 := pack (scaled16 (frameL f0))
  let r0 := pack (scaled16 (frameR f0))
  let l1 := pack (scaled16 (frameL f1))
  let r1 := pack (scaled16 (frameR f1))
  let t := tick s.cur (decimateOut p.coeff s.hb.downL l0 l1) (decimateOut p.coeff s.hb.downR r0 r1) s.wa
  let oL := encodeAt s.freeCount t.outL
  let oR := encodeAt (s.freeCount + nanDraws t.outL) t.outR
  let m := toVal s.ctl.mix
  { s with
    hb :=
      { downL := decimateRing s.hb.downL l0 l1
        downR := decimateRing s.hb.downR r0 r1
        upL := interpolateRing s.hb.upL oL
        upR := interpolateRing s.hb.upR oR }
    wa := t.wa
    freeCount := s.freeCount + nanDraws t.outL + nanDraws t.outR
    res0 := frameOf
      (mixQ m (toVal r0) (interpolateOut0 p.coeff s.hb.upR oR))
      (mixQ m (toVal l0) (interpolateOut0 p.coeff s.hb.upL oL))
    res1 := frameOf
      (mixQ m (toVal r1) (interpolateOut1 p.coeff s.hb.upR oR))
      (mixQ m (toVal l1) (interpolateOut1 p.coeff s.hb.upL oL)) }

/-- `NOP` (45_pipeline_and_host.md R111). -/
def execNop (s : State) : Host.Outcome State Fault Refusal := .next s

/-- `INIT` (45_pipeline_and_host.md R112). -/
def execInit (s : State) : Host.Outcome State Fault Refusal := .next (s.resetSequence Config.params)

/-- `GET item` (45_pipeline_and_host.md R114). -/
def execGet (item : Half) (s : State) : Host.Outcome State Fault Refusal := .next (getItem Config.params item s)

/-- `GET_HB h, slot` (45_pipeline_and_host.md R115). -/
def execGetHb (h : RingSel) (slot : BitVec 6) (s : State) : Host.Outcome State Fault Refusal :=
  .next (s.withRes0 ((s.hb.get h).slot slot))

/-- `PROCESS_PAIR f0, f1` (45_pipeline_and_host.md R119). -/
def execProcessPair (f0 f1 : Word) (s : State) : Host.Outcome State Fault Refusal :=
  .next (processPair Config.params f0 f1 s)

end Sys2Proof.Machine
end

