-- ==== Sys2Proof/Machine/WorkAreaCmds.lean ====
section
/-! DEFINITION. The meanings of the four Work Area commands (41_work_area.md). -/

namespace Sys2Proof.Machine

/-- `WA_RD off` (41_work_area.md R77): the encoding of `RR(off)` into `RES0`. -/
def execWaRd (off : Half) (s : State) : Host.Outcome State Fault Refusal :=
  .next (s.withRes0Val (s.wa.rr (zextImm off)))

/-- `WA_WR off, v` (41_work_area.md R78). -/
def execWaWr (off : Half) (v : F32) (s : State) : Host.Outcome State Fault Refusal :=
  if isFinite v then .next (s.withWa (s.wa.wr (zextImm off) (toVal v))) else .next (s.raise .nonfinite)

/-- `WA_ADV n` (41_work_area.md R79). -/
def execWaAdv (n : Half) (s : State) : Host.Outcome State Fault Refusal :=
  .next (s.withWa (s.wa.advance (zextImm n)))

/-- `WA_RESIZE bytes` (41_work_area.md R80). -/
def execWaResize (bytes : Half) (s : State) : Host.Outcome State Fault Refusal :=
  .next (s.withWa (resized (zextImm bytes)))

end Sys2Proof.Machine
end

