-- ==== Sys2Proof/Machine/Dispatch.lean ====
section
/-! DEFINITION. One arm for each command (30_encoding.md R49). -/

namespace Sys2Proof.Machine

def exec (i : Instr) (s : State) : Host.Outcome State Fault Refusal :=
  match i with
  | .nop => Sys2Proof.Machine.execNop s
  | .init => Sys2Proof.Machine.execInit s
  | .hbDec ch x0 x1 => Sys2Proof.Machine.execHbDec ch x0 x1 s
  | .hbInt ch y => Sys2Proof.Machine.execHbInt ch y s
  | .waRd off => Sys2Proof.Machine.execWaRd off s
  | .waWr off v => Sys2Proof.Machine.execWaWr off v s
  | .waAdv n => Sys2Proof.Machine.execWaAdv n s
  | .waResize bytes => Sys2Proof.Machine.execWaResize bytes s
  | .rvTick xL xR => Sys2Proof.Machine.execRvTick xL xR s
  | .psApply idx => Sys2Proof.Machine.execPsApply idx s
  | .psDecay v => Sys2Proof.Machine.execPsDecay v s
  | .psIngain v => Sys2Proof.Machine.execPsIngain v s
  | .psRevlvl v => Sys2Proof.Machine.execPsRevlvl v s
  | .psMix v => Sys2Proof.Machine.execPsMix v s
  | .psDerive => Sys2Proof.Machine.execPsDerive s
  | .get item => Sys2Proof.Machine.execGet item s
  | .getHb h slot => Sys2Proof.Machine.execGetHb h slot s
  | .processPair f0 f1 => Sys2Proof.Machine.execProcessPair f0 f1 s

end Sys2Proof.Machine
end

