-- ==== Sys2Proof/WellFormed.lean ====
section
/-! DEFINITION. Which commands raise no error once they are decoded (60_exceptions.md R126). The ranges of channel,
ring and slot are facts of the types of `Instr`, so every command can be encoded; what is left to check is what
`BAD_ITEM` and `NONFINITE` check. -/

namespace Sys2Proof

/-- The binary32 operand is neither an infinity nor a NaN: its exponent field is not all ones (30_encoding.md R52). -/
def finiteOperand (w : F32) : Bool := w.extractLsb' 23 8 != 0xFF#8

/-- The item numbers of 45_pipeline_and_host.md R113. -/
def definedItem (item : Half) : Bool :=
  let n := item.toNat
  decide (n ≤ 0x000C) || decide (0x0100 ≤ n ∧ n ≤ 0x0121) || decide (0x0200 ≤ n ∧ n ≤ 0x0221) ||
    decide (0x0300 ≤ n ∧ n ≤ 0x0322)

/-- A command that raises no error: its item is defined, its used binary32 operands are finite where the rule asks
for it. The setters take any operand (44_parameter_controller.md R104). -/
def Instr.wellFormed : Instr → Bool
  | .hbDec _ x0 x1 => finiteOperand x0 && finiteOperand x1
  | .hbInt _ y => finiteOperand y
  | .waWr _ v => finiteOperand v
  | .rvTick xL xR => finiteOperand xL && finiteOperand xR
  | .get item => definedItem item
  | .nop | .init | .waRd _ | .waAdv _ | .waResize _ | .psApply _ | .psDecay _ | .psIngain _ | .psRevlvl _
  | .psMix _ | .psDerive | .getHb _ _ | .processPair _ _ => true

end Sys2Proof
end

