-- ==== Sys2Proof/Machine/Fetch.lean ====
section
/-! DEFINITION. How a command reaches the CORE (30_encoding.md R45, R46, R50): what one sample of the host's signals asks
for. There is no fetch: the command and its operands are presented by the host (00_scope.md R3, 20_memory.md R43). -/

namespace Sys2Proof.Machine

/-- What the CORE does with one sample of the input signals. -/
inductive Request where
  /-- `rst_n` is low. -/
  | reset
  /-- `rst_n` is high again after it was low. -/
  | release
  /-- No command is presented. -/
  | none
  /-- A command is transferred and its words decode. -/
  | command (i : Instr)
  /-- A command is transferred and its word is rejected. -/
  | rejected (r : Reject)
deriving DecidableEq, Repr

/-- The request of an input sample when `cmd_ready` is `ready` (30_encoding.md R45: a transfer needs `cmd_valid` and
`cmd_ready`; 70_reset_and_hazards.md R139: no transfer in reset or during the reset sequence). Between steps
`cmd_ready` is 0 exactly when `rst_n` was low at the end of the last sample. -/
def requestOf (ready : Bool) (d : HostDrive) : Request :=
  if d.rstN then
    if ready then
      if d.cmdValid then
        match decode d.words with
        | .ok i => .command i
        | .rejected r => .rejected r
      else .none
    else .release
  else .reset

/-- The sample by which the host presents a command. -/
def presented (c : CmdWords) : HostDrive := ⟨true, true, c, false⟩

/-- What a request does: a transferred command runs whole and gets its response, a rejected one raises its error
(30_encoding.md R50), no command leaves the state (60_exceptions.md R136). -/
def serve (r : Request) (s : State) : Host.Outcome State Fault Refusal :=
  match r with
  | .reset => .next s.holdReset
  | .release => .next (s.releaseReset Config.params)
  | .none => .next s.idle
  | .command i => exec i s.accept
  | .rejected e => .next (s.accept.raise (rejectCause e))

/-- The row of a command in the access table, its writes (10_state.md R26); a setter with a NaN operand writes nothing
(44_parameter_controller.md R104). -/
def rowOf : Instr → Touched
  | .nop => {}
  | .init => Touched.all
  | .hbDec ch _ _ => { rings := [downRing ch], res0 := true }
  | .hbInt ch _ => { rings := [upRing ch], res0 := true, res1 := true }
  | .waRd _ => { res0 := true }
  | .waWr _ _ => { ram := true }
  | .waAdv _ => { waBase := true }
  | .waResize _ => { ram := true, waBase := true, waSize := true }
  | .rvTick _ _ => { ram := true, waBase := true, res0 := true, res1 := true }
  | .psApply _ => { presetIdx := true, base := true, cur := true, ram := true, waBase := true, waSize := true }
  | .psDecay v => if isNaN v then {} else { decay := true, cur := true }
  | .psIngain v => if isNaN v then {} else { ingain := true, cur := true }
  | .psRevlvl v => if isNaN v then {} else { revlvl := true, cur := true }
  | .psMix v => if isNaN v then {} else { mix := true }
  | .psDerive => { cur := true }
  | .get _ => { res0 := true }
  | .getHb _ _ => { res0 := true }
  | .processPair _ _ => { rings := [.downL, .downR, .upL, .upR], ram := true, waBase := true, res0 := true, res1 := true }

/-- The elements a request writes; a command that raises an error writes `STATUS` only (10_state.md R26). -/
def Request.touches : Request → Touched
  | .reset | .none => {}
  | .release => Touched.all
  | .command i => if i.wellFormed then rowOf i else { status := true }
  | .rejected _ => { status := true }

/-- One sample of the input signals. Where `rst_n` falls inside it, what it asks for is abandoned
(70_reset_and_hazards.md R139): a command, or the reset sequence of a release (log 9); with no command in progress
nothing but the lines and the counter change. -/
def sampled (d : HostDrive) (s : State) : Host.Outcome State Fault Refusal :=
  match d.rstN && d.rstFalls with
  | true => .next (s.abandon (requestOf s.cmdReady d).touches)
  | false => serve (requestOf s.cmdReady d) s

end Sys2Proof.Machine
end

