-- ==== Sys2Proof/Machine/Step.lean ====
section
/-! DEFINITION. One step: the CORE takes one sample of the host's signals and, if it transfers a command, executes that
command whole (30_encoding.md R45, R46; log 2). -/

namespace Sys2Proof.Machine

/-- One step. With no sample left the host presents nothing. DESIGN CHOICE (log 1): it then keeps `rst_n` at the level it
last had, high unless the last sample left it low; after a low sample the list's end is thus no release, `cmd_ready`
stays 0 and the reset sequence does not run. -/
def step (s : State) : Host.Outcome State Fault Refusal :=
  match s.host with
  | [] => .next s.idle
  | d :: rest => sampled d (s.withHost rest)

/-- The state in which the host presents, in the very next step, the command whose bits are `w` (`nbits` of them, every
bit above 0); what it drives after that is unchanged. The CORE has no memory that holds commands, so this is how a
program comes to run (log 1). -/
def State.withFetchWord (s : State) (nbits w : Nat) : State :=
  (s.withHost (presented (tableWords nbits w) :: s.host)).withLines true s.rspValid s.rspErr

end Sys2Proof.Machine
end

