-- ==== Sys2Proof/Machine/Pseudo.lean ====
section
/-! DEFINITION. The pseudo-instructions of 30_encoding.md R57 as lists of commands, and running such a list. -/

namespace Sys2Proof.Machine

/-- `PROCESS_BLOCK` (30_encoding.md R57, 45_pipeline_and_host.md R122): frames in pairs, in order; a final unpaired frame
issues nothing. -/
def processBlock : List Word → List Instr
  | f0 :: f1 :: rest => .processPair f0 f1 :: processBlock rest
  | [_] => []
  | [] => []

/-- `STATE_SAVE` (30_encoding.md R57): preset, decay, mix, input gain, reverb level. -/
def stateSave : List Instr :=
  [.get 0x0000#16, .get 0x0001#16, .get 0x0002#16, .get 0x0003#16, .get 0x0004#16]

/-- `STATE_RESTORE p, d, m, g, l` (30_encoding.md R57). -/
def stateRestore (p : Half) (d m g l : F32) : List Instr :=
  [.psApply p, .psDecay d, .psIngain g, .psRevlvl l, .psMix m]

/-- `SET_PRESET p` (30_encoding.md R57). -/
def setPreset (p : Half) : List Instr := [.psApply p]

/-- The commands of a list executed one after the other (30_encoding.md R46), stopping where one stops. -/
def runInstrs : List Instr → State → Host.Outcome State Fault Refusal
  | [], s => .next s
  | i :: rest, s =>
    match exec i s with
    | .next t => runInstrs rest t
    | .fault f => .fault f
    | .refused r => .refused r

end Sys2Proof.Machine
end

