-- ==== Sys2Proof/Safety.lean ====
section
/-! DEFINITION. What holds of the machine between commands (10_state.md R16, R17, R20, R21, R25), in the words the
statements use. -/

namespace Sys2Proof.Machine

/-- 10_state.md R25: the size is a power of two from 1 to 65536, the mask is the size less one, the base is at most the
mask; and the RAM has its canonical form (the model's own, log 7) with every sample from `WA_SIZE` on 0
(93_implementation_defined.md row 11). -/
abbrev WorkArea.Inv (w : WorkArea) : Prop :=
  w.size = 2 ^ w.size.log2 ∧ w.size ≤ 65536 ∧ w.mask.toNat = w.size - 1 ∧ w.base.toNat ≤ w.mask.toNat ∧
    w.ram.wf = true ∧ ∀ c ∈ w.ram, c.1 < w.size

/-- A legal control value (10_state.md R17): in [0, 1], `−0.0` included. -/
def inUnit (v : F32) : Bool := fle fzero (toVal v) && fle (toVal v) fOne

/-- The legal values of the controls (10_state.md R17); the preset index is legal by its type. -/
abbrev Controls.Legal (c : Controls) : Prop :=
  inUnit c.decay = true ∧ inUnit c.mix = true ∧ inUnit c.ingain = true ∧ inUnit c.revlvl = true

/-- `STATUS` as the machine leaves it (10_state.md R16, 60_exceptions.md R128): bits 31:8 are zero, `LAST_CAUSE` is 0
exactly when no error bit is set, and otherwise it is a cause code whose bit is set. -/
abbrev StatusLegal (v : Word) : Prop :=
  v.extractLsb' 8 24 = 0#24 ∧
    ((v.extractLsb' 0 4 = 0#4 ∧ lastCause v = 0#4) ∨
      (lastCause v = 1#4 ∧ v.getLsbD 0 = true) ∨ (lastCause v = 2#4 ∧ v.getLsbD 1 = true) ∨
      (lastCause v = 3#4 ∧ v.getLsbD 2 = true) ∨ (lastCause v = 4#4 ∧ v.getLsbD 3 = true))

/-- 10_state.md R20 and R21: `BASE` is the scaled selected preset and `CUR` is derived from it and the controls. -/
def Coherent (s : State) : Prop :=
  s.base = scale (Config.params.preset s.ctl.presetIdx) ∧
    s.cur = derive s.base s.ctl.decay s.ctl.ingain s.ctl.revlvl

/-- Every gain of a scaled preset is a finite number. -/
def GainsFinite (c : Scaled) : Bool :=
  isFinite c.vIIR && isFinite c.vCOMB1 && isFinite c.vCOMB2 && isFinite c.vCOMB3 && isFinite c.vCOMB4 &&
    isFinite c.vWALL && isFinite c.vAPF1 && isFinite c.vAPF2 && isFinite c.vLIN && isFinite c.vRIN &&
    isFinite c.vLOUT && isFinite c.vROUT

/-- A step that completes a command without an error, the good outcome of a command (60_exceptions.md R128). -/
def CompletesCleanly (s : State) : Prop :=
  ∃ t, step s = .next t ∧ t.rspValid = true ∧ t.rspErr = false

end Sys2Proof.Machine
end

