-- ==== Sys2Proof/Certificates/Slice0/Obligations.lean ====
section
/-! DEFINITION. The statements for the provers. First the words they are written in, taken from the spec's tables and
formulas and not from the model's functions where the spec gives one; then one definition for each statement. -/

namespace Sys2Proof.Machine

/-! ### Words of the statements -/

/-- The rows of 30_encoding.md R49 with the masks of R48: (match, mask). -/
def tableRows : List (Word × Word) :=
  [(0x00000000#32, 0xFFFFFFFF#32), (0x01000000#32, 0xFFFFFFFF#32), (0x10000000#32, 0xFFEFFFFF#32),
   (0x11000000#32, 0xFFEFFFFF#32), (0x20000000#32, 0xFFFF0000#32), (0x21000000#32, 0xFFFF0000#32),
   (0x22000000#32, 0xFFFF0000#32), (0x23000000#32, 0xFFFF0000#32), (0x30000000#32, 0xFFFFFFFF#32),
   (0x40000000#32, 0xFFFF0000#32), (0x41000000#32, 0xFFFFFFFF#32), (0x42000000#32, 0xFFFFFFFF#32),
   (0x43000000#32, 0xFFFFFFFF#32), (0x44000000#32, 0xFFFFFFFF#32), (0x45000000#32, 0xFFFFFFFF#32),
   (0x50000000#32, 0xFFFF0000#32), (0x51000000#32, 0xFFCFFFC0#32), (0x60000000#32, 0xFFFFFFFF#32)]

/-- `OPC`, bits 31:24 (30_encoding.md R47). -/
def opcBits (w : Word) : BitVec 8 := w.extractLsb' 24 8

/-- Whether a command uses `OPA` (30_encoding.md R49, column "operands used"). -/
def usesOpa : Instr → Bool
  | .hbDec _ _ _ | .hbInt _ _ | .waWr _ _ | .rvTick _ _ | .psDecay _ | .psIngain _ | .psRevlvl _ | .psMix _
  | .processPair _ _ => true
  | _ => false

/-- Whether a command uses `OPB` (30_encoding.md R49, column "operands used"). -/
def usesOpb : Instr → Bool
  | .hbDec _ _ _ | .rvTick _ _ | .processPair _ _ => true
  | _ => false

/-- The `STATUS` bit of an error (60_exceptions.md R126). -/
def errorBit : CmdError → Nat
  | .illOpc => 0
  | .rsv => 1
  | .badItem => 2
  | .nonfinite => 3

/-- The cause code of an error (60_exceptions.md R126). -/
def errorCode : CmdError → Nat
  | .illOpc => 1
  | .rsv => 2
  | .badItem => 3
  | .nonfinite => 4

/-- `STATUS` after an error (60_exceptions.md R128): its bit set, bits 7:4 the code, every other bit as before. -/
def Records (e : CmdError) (old new : Word) : Prop :=
  new.getLsbD (errorBit e) = true ∧ (new.extractLsb' 4 4).toNat = errorCode e ∧
    ∀ i, i ≠ errorBit e → ¬(4 ≤ i ∧ i < 8) → new.getLsbD i = old.getLsbD i

/-- The operand error of a command that is not well-formed (60_exceptions.md R126). -/
def operandError : Instr → CmdError
  | .get _ => .badItem
  | _ => .nonfinite

/-- `(WA_BASE + off) mod WA_SIZE` (20_memory.md R28). -/
def addressOf (w : WorkArea) (off : Int) : Int := ((w.base.toNat : Int) + off) % (w.size : Int)

/-- The number `q / 32768` of a sample or a raw gain: `q * 2^134` units of 2^−149. -/
def exact16 (q : Half) : FVal := .num (decide (q.toInt < 0)) (q.toInt.natAbs * 2 ^ 134)

/-- A finite number times 32768, rounded toward zero and saturated to an s16 (20_memory.md R34): `mag` units of 2^−149
are `mag / 2^134` whole samples. -/
def storedSample (neg : Bool) (mag : Nat) : Int :=
  max (-32768) (min 32767 (if neg then -((mag / 2 ^ 134 : Nat) : Int) else ((mag / 2 ^ 134 : Nat) : Int)))

/-- `Win(h, k)`: the slot `(pos − 39 + k) mod 64` (40_halfband.md R62). -/
def windowSample (r : Ring) (k : Nat) : F32 :=
  r.buf[(r.pos.toNat + 25 + k) % 64]'(Nat.mod_lt _ (by decide))

/-- A tap sum over the taps `ks` in their order, from `+0.0` (40_halfband.md R63). -/
def specSum (coeff : Nat → F32) (ks : List Nat) (r : Ring) : FVal :=
  ks.foldl (fun acc k => fadd acc (fmul (toVal (coeff k)) (toVal (windowSample r k)))) fzero

/-- `k = 0 .. 38`. -/
def allK : List Nat :=
  [0, 1, 2, 3, 4, 5, 6, 7, 8, 9, 10, 11, 12, 13, 14, 15, 16, 17, 18, 19, 20, 21, 22, 23, 24, 25, 26, 27, 28, 29, 30,
   31, 32, 33, 34, 35, 36, 37, 38]

/-- `k = 0, 2, .., 38`. -/
def evenK : List Nat := [0, 2, 4, 6, 8, 10, 12, 14, 16, 18, 20, 22, 24, 26, 28, 30, 32, 34, 36, 38]

/-- `k = 1, 3, .., 37`. -/
def oddK : List Nat := [1, 3, 5, 7, 9, 11, 13, 15, 17, 19, 21, 23, 25, 27, 29, 31, 33, 35, 37]

/-- `new` is `old` after `Push(h, v)` (40_halfband.md R61): the slot at the cursor holds `v`, every other slot is as
before, the cursor is one further modulo 64. -/
def Pushed (old : Ring) (v : F32) (new : Ring) : Prop :=
  new.pos.toNat = (old.pos.toNat + 1) % 64 ∧
    ∀ (i : Nat) (h : i < 64), new.buf[i] = if i = old.pos.toNat then v else old.buf[i]

/-- Two values that differ at most in the sign of a zero (40_halfband.md R68). -/
def SameButZeroSign (x y : FVal) : Prop := x = y ∨ ∃ a b, x = .num a 0 ∧ y = .num b 0

/-- Every slot of a ring is `±0.0`. -/
def SilentRing (r : Ring) : Prop := ∀ (i : Nat) (h : i < 64), r.buf[i] = 0#32 ∨ r.buf[i] = 0x80000000#32

/-- `new` is `old` clamped to [0, 1] (44_parameter_controller.md R104): `+0.0` below, `1.0` above, else itself. -/
def ClampedTo01 (old new : F32) : Prop :=
  new = if flt (toVal old) (.num false 0) then 0#32
    else if flt (.num false (2 ^ 149)) (toVal old) then 0x3F800000#32 else old

/-- The 34 entries of a scaled preset as words, in index order (10_state.md R18, 30_encoding.md R54). -/
def scaledWords (c : Scaled) : List Word :=
  [
   c.dAPF1.zeroExtend 32, c.dAPF2.zeroExtend 32, c.vIIR, c.vCOMB1, c.vCOMB2, c.vCOMB3, c.vCOMB4, c.vWALL,
   c.vAPF1, c.vAPF2, c.dLSAME.zeroExtend 32, c.dRSAME.zeroExtend 32, c.mLSAME.zeroExtend 32,
   c.mRSAME.zeroExtend 32, c.dLDIFF.zeroExtend 32, c.dRDIFF.zeroExtend 32, c.mLDIFF.zeroExtend 32,
   c.mRDIFF.zeroExtend 32, c.mLCOMB1.zeroExtend 32, c.mRCOMB1.zeroExtend 32, c.mLCOMB2.zeroExtend 32,
   c.mRCOMB2.zeroExtend 32, c.mLCOMB3.zeroExtend 32, c.mRCOMB3.zeroExtend 32, c.mLCOMB4.zeroExtend 32,
   c.mRCOMB4.zeroExtend 32, c.mLAPF1.zeroExtend 32, c.mRAPF1.zeroExtend 32, c.mLAPF2.zeroExtend 32,
   c.mRAPF2.zeroExtend 32, c.vLIN, c.vRIN, c.vLOUT, c.vROUT]

/-- The 35 raw fields of a preset as words, in index order (10_state.md R18, 30_encoding.md R54). -/
def rawWords (p : RawPreset) : List Word :=
  [
   p.dAPF1.zeroExtend 32, p.dAPF2.zeroExtend 32, p.vIIR.signExtend 32, p.vCOMB1.signExtend 32,
   p.vCOMB2.signExtend 32, p.vCOMB3.signExtend 32, p.vCOMB4.signExtend 32, p.vWALL.signExtend 32,
   p.vAPF1.signExtend 32, p.vAPF2.signExtend 32, p.dLSAME.zeroExtend 32, p.dRSAME.zeroExtend 32,
   p.mLSAME.zeroExtend 32, p.mRSAME.zeroExtend 32, p.dLDIFF.zeroExtend 32, p.dRDIFF.zeroExtend 32,
   p.mLDIFF.zeroExtend 32, p.mRDIFF.zeroExtend 32, p.mLCOMB1.zeroExtend 32, p.mRCOMB1.zeroExtend 32,
   p.mLCOMB2.zeroExtend 32, p.mRCOMB2.zeroExtend 32, p.mLCOMB3.zeroExtend 32, p.mRCOMB3.zeroExtend 32,
   p.mLCOMB4.zeroExtend 32, p.mRCOMB4.zeroExtend 32, p.mLAPF1.zeroExtend 32, p.mRAPF1.zeroExtend 32,
   p.mLAPF2.zeroExtend 32, p.mRAPF2.zeroExtend 32, p.vLIN.signExtend 32, p.vRIN.signExtend 32,
   p.vLOUT.signExtend 32, p.vROUT.signExtend 32, p.sizeBytes.zeroExtend 32]

/-- The items `0x0000` to `0x000C` (45_pipeline_and_host.md R113). -/
def controlWords (s : State) : List Word :=
  [BitVec.ofNat 32 s.ctl.presetIdx.val, s.ctl.decay, s.ctl.mix, s.ctl.ingain, s.ctl.revlvl, 6#32,
   BitVec.ofNat 32 s.wa.size, s.wa.base.zeroExtend 32, s.hb.downL.pos.zeroExtend 32, s.hb.downR.pos.zeroExtend 32,
   s.hb.upL.pos.zeroExtend 32, s.hb.upR.pos.zeroExtend 32, s.status]

/-- The gains that `Derive` leaves as `BASE` has them (42_preset_scaler.md R83). -/
def plainGains (c : Scaled) : List F32 :=
  [c.vIIR, c.vCOMB1, c.vCOMB2, c.vCOMB3, c.vCOMB4, c.vAPF1, c.vAPF2]

/-- All twelve gains. -/
def allGains (c : Scaled) : List F32 := plainGains c ++ [c.vWALL, c.vLIN, c.vRIN, c.vLOUT, c.vROUT]

/-- The number `n`, a whole number of ones. -/
def whole (neg : Bool) (n : Nat) : FVal := .num neg (n * 2 ^ 149)

/-- `MaxScale(w)` (44_parameter_controller.md R102): `0.99 / |w|` clamped to [0.5, 10]. -/
def wallLimit (w : FVal) : FVal :=
  fclamp (fdiv (toVal 0x3F7D70A4#32) (fabs w)) (toVal 0x3F000000#32) (toVal 0x41200000#32)

/-- `DecayScale(d, w)` (44_parameter_controller.md R103). -/
def wallScale (d w : FVal) : FVal :=
  if fle d (toVal 0x3F000000#32) then fadd (toVal 0x3F000000#32) d
  else fadd (toVal 0x3F800000#32)
    (fmul (fmul (fsub d (toVal 0x3F000000#32)) (toVal 0x40000000#32)) (fsub (wallLimit w) (toVal 0x3F800000#32)))

/-- The output sample of one channel (45_pipeline_and_host.md R117). -/
def mixedSample (m dry wet : FVal) : Half :=
  toS16 (fmul (fclamp (fadd (fmul dry (fsub (whole false 1) m)) (fmul wet m)) (whole true 1) (whole false 1))
    (whole false 32768))

/-- `lo ≤ v < hi` for the value of an encoding. -/
def InRange (lo hi : FVal) (w : F32) : Prop := fle lo (toVal w) = true ∧ flt (toVal w) hi = true

/-- The eight addresses a tick writes (43_reverb_tick.md R90, R92, R94, R95), as the tick computes them. -/
def tickWrites (c : Scaled) (w : WorkArea) : List Nat :=
  [w.ea c.mLSAME.toNat, w.ea c.mRSAME.toNat, w.ea c.mLDIFF.toNat, w.ea c.mRDIFF.toNat, w.ea c.mLAPF1.toNat,
   w.ea c.mRAPF1.toNat, w.ea c.mLAPF2.toNat, w.ea c.mRAPF2.toNat]

/-- The addresses a tick reads before it writes them (43_reverb_tick.md R90, R92 to R95): all of its reads but the four
that read a just-written all-pass sample back. -/
def tickReads (c : Scaled) (w : WorkArea) : List Nat :=
  [w.ea c.dLSAME.toNat, w.ea ((c.mLSAME.toNat : Int) - 1), w.ea c.dRSAME.toNat, w.ea ((c.mRSAME.toNat : Int) - 1),
   w.ea c.dRDIFF.toNat, w.ea ((c.mLDIFF.toNat : Int) - 1), w.ea c.dLDIFF.toNat, w.ea ((c.mRDIFF.toNat : Int) - 1),
   w.ea c.mLCOMB1.toNat, w.ea c.mLCOMB2.toNat, w.ea c.mLCOMB3.toNat, w.ea c.mLCOMB4.toNat,
   w.ea c.mRCOMB1.toNat, w.ea c.mRCOMB2.toNat, w.ea c.mRCOMB3.toNat, w.ea c.mRCOMB4.toNat,
   w.ea ((c.mLAPF1.toNat : Int) - c.dAPF1.toNat), w.ea ((c.mRAPF1.toNat : Int) - c.dAPF1.toNat),
   w.ea ((c.mLAPF2.toNat : Int) - c.dAPF2.toNat), w.ea ((c.mRAPF2.toNat : Int) - c.dAPF2.toNat)]

/-- No address a tick writes is another one it writes or one it reads before writing (20_memory.md R41). -/
def NoAliasing (c : Scaled) (w : WorkArea) : Prop :=
  (tickWrites c w).Nodup ∧ ∀ a ∈ tickReads c w, a ∉ tickWrites c w

/-- The one-pole recursion of steps 1 and 2 (43_reverb_tick.md R90). -/
def onePole (c : Scaled) (inp fb pv : FVal) : FVal :=
  fadd (fmul (fsub (fadd inp (fmul fb (toVal c.vWALL))) pv) (toVal c.vIIR)) pv

/-- The comb sum of step 3 (43_reverb_tick.md R93). -/
def fourCombs (c : Scaled) (r1 r2 r3 r4 : FVal) : FVal :=
  fadd (fadd (fadd (fmul (toVal c.vCOMB1) r1) (fmul (toVal c.vCOMB2) r2)) (fmul (toVal c.vCOMB3) r3))
    (fmul (toVal c.vCOMB4) r4)

/-- What an all-pass stage writes (43_reverb_tick.md R94). -/
def apWritten (g x delayed : FVal) : FVal := fsub x (fmul g delayed)

/-- What an all-pass stage gives (43_reverb_tick.md R94): the written sample, truncated and saturated, times the gain,
plus the delayed sample. -/
def apOutput (g x delayed : FVal) : FVal :=
  fadd (fmul (scaled16 (quant16 (apWritten g x delayed))) g) delayed

/-- A magnitude binary32 can hold: at most 24 significant bits, below 2^128. -/
def Representable (k : Nat) : Prop := k < 2 ^ 277 ∧ ∃ m e, m < 2 ^ 24 ∧ k = m * 2 ^ e

/-- The distance of `k` from the exact `n / d`, times `d`. -/
def distance (k n d : Nat) : Nat := ((k * d : Int) - n).natAbs

/-- The command is none of those that write a column of 10_state.md R26. -/
def notIn (i : Instr) (l : List Opcode) : Prop := i.opcode ∉ l

/-- Every state element outside the row of command `i` in the access table is in `t` as it is in `s`, each control by
itself; and where the command raises an error, every element but `STATUS` (10_state.md R26). -/
def ColumnsKept (i : Instr) (s t : State) : Prop :=
  (notIn i [.init, .psApply, .psDecay, .psIngain, .psRevlvl, .psMix] → t.ctl = s.ctl) ∧
  (notIn i [.init, .psApply] → t.base = s.base ∧ t.ctl.presetIdx = s.ctl.presetIdx) ∧
  (notIn i [.init, .psDecay] → t.ctl.decay = s.ctl.decay) ∧
  (notIn i [.init, .psIngain] → t.ctl.ingain = s.ctl.ingain) ∧
  (notIn i [.init, .psRevlvl] → t.ctl.revlvl = s.ctl.revlvl) ∧
  (notIn i [.init, .psMix] → t.ctl.mix = s.ctl.mix) ∧
  (notIn i [.init, .psApply, .psDecay, .psIngain, .psRevlvl, .psDerive] → t.cur = s.cur) ∧
  (notIn i [.init, .hbDec, .hbInt, .processPair] → t.hb = s.hb) ∧
  (i.opcode = .hbDec → t.hb.upL = s.hb.upL ∧ t.hb.upR = s.hb.upR) ∧
  (i.opcode = .hbInt → t.hb.downL = s.hb.downL ∧ t.hb.downR = s.hb.downR) ∧
  (notIn i [.init, .waWr, .waResize, .rvTick, .psApply, .processPair] → t.wa.ram = s.wa.ram) ∧
  (notIn i [.init, .waAdv, .waResize, .rvTick, .psApply, .processPair] → t.wa.base = s.wa.base) ∧
  (notIn i [.init, .waResize, .psApply] → t.wa.size = s.wa.size ∧ t.wa.mask = s.wa.mask) ∧
  (notIn i [.init, .hbDec, .hbInt, .waRd, .rvTick, .get, .getHb, .processPair] → t.res0 = s.res0) ∧
  (notIn i [.init, .hbInt, .rvTick, .processPair] → t.res1 = s.res1) ∧
  (i.wellFormed = true → i ≠ .init → t.status = s.status) ∧
  (i.wellFormed = false → t.ctl = s.ctl ∧ t.base = s.base ∧ t.cur = s.cur ∧ t.hb = s.hb ∧ t.wa = s.wa ∧
    t.res0 = s.res0 ∧ t.res1 = s.res1)

/-- `RR(off)` by the address of 20_memory.md R28: the sample there over 32768 (R33). -/
def sampleAt (w : WorkArea) (off : Int) : FVal := exact16 (w.read (addressOf w off).toNat)

/-- `new` is `old` after `WR(off, v)` (20_memory.md R34): the one sample at the address of `off` is `ToS16(v ×f 32768.0)`,
nothing else has changed. -/
def Stored (old : WorkArea) (off : Int) (v : FVal) (new : WorkArea) : Prop :=
  new.size = old.size ∧ new.mask = old.mask ∧ new.base = old.base ∧
    ∀ a, new.read a = if (a : Int) = addressOf old off then toS16 (fmul v (whole false 32768)) else old.read a

/-- The exact number of units of a finite value, with its sign. -/
def signedUnits (neg : Bool) (mag : Nat) : Int := if neg then -(mag : Int) else (mag : Int)

/-- `+f` and `−f` (00_scope.md R8): the exact sum of two numbers rounded once; an exact sum of zero is `+0.0` unless both
are `−0.0`; the infinities. -/
def SumIsExactThenRounded : Prop :=
  (∀ a b x y, signedUnits a x + signedUnits b y ≠ 0 → fadd (.num a x) (.num b y) =
    roundMag (decide (signedUnits a x + signedUnits b y < 0)) (signedUnits a x + signedUnits b y).natAbs 1) ∧
  (∀ a b x y, signedUnits a x + signedUnits b y = 0 →
    fadd (.num a x) (.num b y) = .num (decide (a = true ∧ b = true ∧ x = 0 ∧ y = 0)) 0) ∧
  (∀ a b x, fadd (.num a x) (.inf b) = .inf b ∧ fadd (.inf b) (.num a x) = .inf b) ∧
  (∀ a, fadd (.inf a) (.inf a) = .inf a ∧ fadd (.inf a) (.inf (!a)) = .nan) ∧
  (∀ v b y, fsub v (.num b y) = fadd v (.num (!b) y) ∧ fsub v (.inf b) = fadd v (.inf (!b))) ∧
  ∀ v, fadd v .nan = .nan ∧ fadd .nan v = .nan ∧ fsub v .nan = .nan ∧ fsub .nan v = .nan

/-- `×f` (00_scope.md R8): the exact product of two numbers rounded once, negative where the signs differ; the
infinities. -/
def ProductIsExactThenRounded : Prop :=
  (∀ a b x y, fmul (.num a x) (.num b y) = roundMag (a != b) (x * y) (2 ^ 149)) ∧
  (∀ a b x, 0 < x → fmul (.num a x) (.inf b) = .inf (a != b) ∧ fmul (.inf b) (.num a x) = .inf (a != b)) ∧
  (∀ a b, fmul (.num a 0) (.inf b) = .nan ∧ fmul (.inf b) (.num a 0) = .nan ∧
    fmul (.inf a) (.inf b) = .inf (a != b)) ∧
  ∀ v, fmul v .nan = .nan ∧ fmul .nan v = .nan

/-- `/f` (00_scope.md R8, 92_eei_decisions.md D29): the exact quotient of two numbers rounded once, negative where the
signs differ; the divisions by zero; the infinities. -/
def QuotientIsExactThenRounded : Prop :=
  (∀ a b x y, 0 < y → fdiv (.num a x) (.num b y) = roundMag (a != b) (x * 2 ^ 149) y) ∧
  (∀ a b x, 0 < x → fdiv (.num a x) (.num b 0) = .inf (a != b)) ∧
  (∀ a b x, fdiv (.num a 0) (.num b 0) = .nan ∧ fdiv (.num a x) (.inf b) = .num (a != b) 0 ∧
    fdiv (.inf a) (.num b x) = .inf (a != b) ∧ fdiv (.inf a) (.inf b) = .nan) ∧
  ∀ v, fdiv v .nan = .nan ∧ fdiv .nan v = .nan

/-- `<` and `≤` (00_scope.md R8, R10): the two zeros are equal, an infinity lies beyond every number, a NaN fails every
comparison. -/
def ComparisonsAreExact : Prop :=
  (∀ a b x y, (flt (.num a x) (.num b y) = true ↔ signedUnits a x < signedUnits b y) ∧
    (fle (.num a x) (.num b y) = true ↔ signedUnits a x ≤ signedUnits b y)) ∧
  (∀ a b x, flt (.num a x) (.inf b) = !b ∧ fle (.num a x) (.inf b) = !b ∧ flt (.inf b) (.num a x) = b ∧
    fle (.inf b) (.num a x) = b) ∧
  (∀ a b, (flt (.inf a) (.inf b) = true ↔ a = true ∧ b = false) ∧
    (fle (.inf a) (.inf b) = true ↔ a = true ∨ b = false)) ∧
  ∀ v, flt v .nan = false ∧ flt .nan v = false ∧ fle v .nan = false ∧ fle .nan v = false

end Sys2Proof.Machine

open Sys2Proof Sys2Proof.Machine

/-! ### Encoding -/

/-- 30_encoding.md R49, R56: words of every family, written out from the table, decode to their commands. -/
def Obligations.WordsOfEveryFamilyDecode : Prop :=
  decode ⟨0x00000000#32, 0#32, 0#32⟩ = .ok .nop ∧
    decode ⟨0x10100000#32, 0x3F800000#32, 0xBF800000#32⟩ = .ok (.hbDec .right 0x3F800000#32 0xBF800000#32) ∧
    decode ⟨0x2100FFFF#32, 0xBF800000#32, 0#32⟩ = .ok (.waWr 0xFFFF#16 0xBF800000#32) ∧
    decode ⟨0x30000000#32, 1#32, 2#32⟩ = .ok (.rvTick 1#32 2#32) ∧
    decode ⟨0x4000FFFF#32, 0#32, 0#32⟩ = .ok (.psApply 0xFFFF#16) ∧
    decode ⟨0x44000000#32, 0x3F000000#32, 7#32⟩ = .ok (.psMix 0x3F000000#32) ∧
    decode ⟨0x50000322#32, 0#32, 0#32⟩ = .ok (.get 0x0322#16) ∧
    decode ⟨0x5130003F#32, 0#32, 0#32⟩ = .ok (.getHb .upR 63#6) ∧
    decode ⟨0x60000000#32, 0xFF380064#32, 0x80007FFF#32⟩ = .ok (.processPair 0xFF380064#32 0x80007FFF#32)

/-- 30_encoding.md R47 to R56: the decoder reads back every command the encoder writes, every operand included. -/
def Obligations.DecodeOfEncodeIsTheCommand : Prop := ∀ i : Instr, decode (encode i) = .ok i

/-- 30_encoding.md R47 to R56: a command word has one meaning. The encoder writes back the word that was decoded, each
operand word the command uses, and 0 for an operand word it ignores. -/
def Obligations.EncodeOfDecodedIsTheWord : Prop :=
  ∀ (c : CmdWords) (i : Instr), decode c = .ok i →
    encode i = ⟨c.cmd, if usesOpa i then c.opa else 0#32, if usesOpb i then c.opb else 0#32⟩

/-- 30_encoding.md R50: the decoder accepts exactly the words of the table's rows; a word whose `OPC` no row has is
rejected as `ILL_OPC`, a word of a row with a fixed bit wrong as `RSV`, whatever the operands. -/
def Obligations.DecoderAcceptsExactlyTheTableRows : Prop :=
  ∀ c : CmdWords,
    (decode c = .rejected .illOpc ↔ ∀ r ∈ tableRows, opcBits r.1 ≠ opcBits c.cmd) ∧
      (decode c = .rejected .rsv ↔ ∃ r ∈ tableRows, opcBits r.1 = opcBits c.cmd ∧ c.cmd &&& r.2 ≠ r.1) ∧
      ((∃ i, decode c = .ok i) ↔ ∃ r ∈ tableRows, opcBits r.1 = opcBits c.cmd ∧ c.cmd &&& r.2 = r.1)

/-! ### The step -/

/-- 30_encoding.md R45, R46, R50: when the host presents a command and `cmd_ready` is 1, the step is the command's
meaning, on the state with that input sample taken and its response valid and without error so far. The list of input
samples is the model's own (log 1). -/
def Obligations.StepRunsTheTransferredCommand : Prop :=
  ∀ (s : State) (c : CmdWords) (i : Instr) (rest : List HostDrive),
    s.host = ⟨true, true, c, false⟩ :: rest → s.cmdReady = true → decode c = .ok i →
      step s = exec i { s with host := rest, rspValid := true, rspErr := false }

/-- 60_exceptions.md R128 for the errors of the command word: the step raises the error and changes nothing else but the
input sample taken and the response. -/
def Obligations.RejectedWordRaisesItsError : Prop :=
  ∀ (s : State) (c : CmdWords) (rest : List HostDrive),
    s.host = ⟨true, true, c, false⟩ :: rest → s.cmdReady = true →
      (decode c = .rejected .illOpc →
        ∃ v, step s = .next { s with host := rest, rspValid := true, rspErr := true, status := v } ∧
          Records .illOpc s.status v) ∧
      (decode c = .rejected .rsv →
        ∃ v, step s = .next { s with host := rest, rspValid := true, rspErr := true, status := v } ∧
          Records .rsv s.status v)

/-- 60_exceptions.md R126, R127, R128 for the errors of a decoded command: an undefined item, or an infinite or NaN
operand where the rule refuses one, leaves everything but `STATUS` and `rsp_err`. -/
def Obligations.MalformedOperandsRaiseAndChangeNothingElse : Prop :=
  ∀ (i : Instr) (s : State), i.wellFormed = false →
    ∃ v, exec i s = .next { s with status := v, rspErr := true } ∧ Records (operandError i) s.status v

/-- 60_exceptions.md R126, R129; 10_state.md R26: a well-formed command other than `INIT` completes, raises nothing, and
leaves `STATUS` and the interface lines as they are. -/
def Obligations.WellFormedCommandsCompleteWithoutError : Prop :=
  ∀ (i : Instr) (s : State), i.wellFormed = true → i ≠ .init →
    ∃ t, exec i s = .next t ∧ t.status = s.status ∧ t.rspErr = s.rspErr ∧ t.rspValid = s.rspValid ∧
      t.cmdReady = s.cmdReady ∧ t.host = s.host

/-- 10_state.md R26 (a summary the spec marks as derived): what each command writes, column by column and control by
control; a state element outside a command's row is unchanged, and a command that raises an error writes `STATUS` only. -/
def Obligations.CommandsWriteOnlyTheirColumns : Prop :=
  ∀ (i : Instr) (s : State), ∃ t, exec i s = .next t ∧ ColumnsKept i s t

/-- The model's deduction (log 13) from 60_exceptions.md R125 and R128 and 30_encoding.md R46: nothing stops the machine,
from no state does a step answer a fault or a refusal. -/
def Obligations.EveryStepAnswersNext : Prop := ∀ s : State, ∃ t, step s = .next t

/-- 70_reset_and_hazards.md R137, R138, R139: with `rst_n` low nothing is accepted or answered, whatever is presented;
a command on which `rst_n` falls gets no response; the sample in which `rst_n` is high again leaves the reset state. The
model's deduction (log 10): an abandoned command changes no element outside its row of 10_state.md R26, none but `STATUS`
where it is one that raises an error. The model's choices: that `rsp_err` is 0 while `rst_n` is low
(log 9, log 11), that a command presented in the sample of the release is not transferred (log 9), how the host's samples
show the fall of `rst_n` (log 10), and the fields `host` and `freeCount` (log 1, log 5). -/
def Obligations.ResetSignalLeavesTheResetState : Prop :=
  (∀ (s : State) (low high : HostDrive) (rest : List HostDrive),
    s.host = low :: high :: rest → low.rstN = false → high.rstN = true → high.rstFalls = false →
      ∃ u, step s = .next u ∧ u.cmdReady = false ∧ u.rspValid = false ∧ u.rspErr = false ∧
        step u = .next { State.reset with host := rest, freeCount := s.freeCount }) ∧
    ∀ (s : State) (c : CmdWords) (i : Instr) (high : HostDrive) (rest : List HostDrive),
      s.host = ⟨true, true, c, true⟩ :: high :: rest → s.cmdReady = true → decode c = .ok i → high.rstN = true →
        high.rstFalls = false →
          ∃ u, step s = .next u ∧ u.cmdReady = false ∧ u.rspValid = false ∧ u.rspErr = false ∧ ColumnsKept i s u ∧
            step u = .next { State.reset with host := rest, freeCount := u.freeCount }

/-- 60_exceptions.md R136: with no command presented the CORE holds its state; that the response lines go back to 0 is the
model's choice (log 11), the list of input samples its own; that the end of the list is no release of `rst_n` is a choice
too (log 1). -/
def Obligations.IdleStepHoldsTheState : Prop :=
  (∀ s : State, s.host = [] → step s = .next { s with rspValid := false, rspErr := false }) ∧
    ∀ (s : State) (c : CmdWords) (rest : List HostDrive),
      s.host = ⟨true, false, c, false⟩ :: rest → s.cmdReady = true →
        step s = .next { s with host := rest, rspValid := false, rspErr := false }

/-! ### Reset -/

/-- 70_reset_and_hazards.md R138: the value of every state element after reset, on the machine's own preset table. -/
def Obligations.ResetStateValues : Prop :=
  State.reset.res0 = 0#32 ∧ State.reset.res1 = 0#32 ∧ State.reset.status = 0#32 ∧
    State.reset.ctl = ⟨0, 0x3F000000#32, 0x3F000000#32, 0x3F000000#32, 0x3F000000#32⟩ ∧
    State.reset.base = scale (Config.presetTable 0) ∧
    State.reset.cur = derive (scale (Config.presetTable 0)) 0x3F000000#32 0x3F000000#32 0x3F000000#32 ∧
    (∀ (h : RingSel) (i : Nat) (hi : i < 64), (State.reset.hb.get h).buf[i] = 0#32) ∧
    (∀ h : RingSel, (State.reset.hb.get h).pos = 0#6) ∧
    (∀ a, State.reset.wa.read a = 0#16) ∧
    State.reset.wa.size = sizeFor (Config.presetTable 0).sizeBytes.toNat ∧
    State.reset.wa.mask.toNat + 1 = State.reset.wa.size ∧ State.reset.wa.base = 0#16 ∧
    State.reset.cmdReady = true ∧ State.reset.rspValid = false ∧ State.reset.rspErr = false

/-- 45_pipeline_and_host.md R112: `INIT` gives the state of a hardware reset, from every state; the interface lines, the
input samples (log 1) and the free-value counter (log 5) are not part of the sequence. -/
def Obligations.InitGivesTheResetState : Prop :=
  ∀ s : State, exec .init s = .next { State.reset with
    host := s.host, cmdReady := s.cmdReady, rspValid := s.rspValid, rspErr := s.rspErr, freeCount := s.freeCount }

/-! ### Control commands -/

/-- 45_pipeline_and_host.md R113, R114: `GET` returns each defined item in `RES0` and changes nothing else; every other
item number raises `BAD_ITEM`. -/
def Obligations.GetReturnsEveryDefinedItem : Prop :=
  ∀ s : State,
    (∀ (n : Nat) (h : n < (controlWords s).length),
      exec (.get (BitVec.ofNat 16 n)) s = .next { s with res0 := (controlWords s)[n] }) ∧
    (∀ (f : Nat) (h : f < (scaledWords s.base).length),
      exec (.get (BitVec.ofNat 16 (0x0100 + f))) s = .next { s with res0 := (scaledWords s.base)[f] }) ∧
    (∀ (f : Nat) (h : f < (scaledWords s.cur).length),
      exec (.get (BitVec.ofNat 16 (0x0200 + f))) s = .next { s with res0 := (scaledWords s.cur)[f] }) ∧
    (∀ (f : Nat) (h : f < (rawWords (Config.presetTable s.ctl.presetIdx)).length),
      exec (.get (BitVec.ofNat 16 (0x0300 + f))) s =
        .next { s with res0 := (rawWords (Config.presetTable s.ctl.presetIdx))[f] }) ∧
    (∀ item : Half, 0x000C < item.toNat → ¬(0x0100 ≤ item.toNat ∧ item.toNat ≤ 0x0121) →
      ¬(0x0200 ≤ item.toNat ∧ item.toNat ≤ 0x0221) → ¬(0x0300 ≤ item.toNat ∧ item.toNat ≤ 0x0322) →
      ∃ v, exec (.get item) s = .next { s with status := v, rspErr := true } ∧ Records .badItem s.status v)

/-- 45_pipeline_and_host.md R111, R115: `NOP` leaves every state as it is, and `GET_HB` returns the slot by its absolute
index and changes nothing else. -/
def Obligations.NopAndGetHbOnlyReadTheState : Prop :=
  ∀ (k : BitVec 6) (s : State),
    exec .nop s = .next s ∧
    exec (.getHb .downL k) s = .next { s with res0 := s.hb.downL.buf[k.toNat]'k.isLt } ∧
    exec (.getHb .downR k) s = .next { s with res0 := s.hb.downR.buf[k.toNat]'k.isLt } ∧
    exec (.getHb .upL k) s = .next { s with res0 := s.hb.upL.buf[k.toNat]'k.isLt } ∧
    exec (.getHb .upR k) s = .next { s with res0 := s.hb.upR.buf[k.toNat]'k.isLt }

/-! ### The Work Area -/

/-- 20_memory.md R28: the effective address is the offset from the base modulo the size, for every integer offset, and
never leaves the buffer. -/
def Obligations.EffectiveAddressIsModuloTheSize : Prop :=
  ∀ (w : WorkArea) (off : Int), w.Inv →
    (w.ea off : Int) = addressOf w off ∧ 0 ≤ addressOf w off ∧ addressOf w off ≤ w.mask.toNat

/-- 20_memory.md R29: an offset field gives the same address zero-extended and sign-extended. -/
def Obligations.OffsetSignDoesNotMatter : Prop :=
  ∀ (w : WorkArea) (f : Half), w.Inv → w.ea f.toNat = w.ea f.toInt ∧ addressOf w f.toNat = addressOf w f.toInt

/-- 41_work_area.md R77, 20_memory.md R33: `WA_RD` returns exactly sample / 32768 and changes nothing but `RES0`. -/
def Obligations.WaRdReturnsTheScaledSample : Prop :=
  ∀ (off : Half) (s : State), s.wa.Inv →
    ∃ bits, exec (.waRd off) s = .next { s with res0 := bits } ∧
      toVal bits = exact16 (s.wa.read (addressOf s.wa off.toNat).toNat)

/-- 41_work_area.md R78, 20_memory.md R34, R31: `WA_WR` of a finite value stores it times 32768, truncated toward zero
and saturated, at the one address; every other sample and all other state is unchanged. -/
def Obligations.WaWrStoresTheTruncatedSample : Prop :=
  ∀ (off : Half) (v : F32) (neg : Bool) (mag : Nat) (s : State), s.wa.Inv → toVal v = .num neg mag →
    ∃ m, exec (.waWr off v) s = .next { s with wa := { s.wa with ram := m } } ∧
      ∀ a, (m.read a).toInt =
        if (a : Int) = addressOf s.wa off.toNat then storedSample neg mag else (s.wa.read a).toInt

/-- 20_memory.md R35: a write followed by a read of the same offset returns the truncated and saturated value. -/
def Obligations.WaRdAfterWaWrReturnsTheStoredValue : Prop :=
  ∀ (off : Half) (v : F32) (neg : Bool) (mag : Nat) (s : State), s.wa.Inv → toVal v = .num neg mag →
    ∃ t, runInstrs [.waWr off v, .waRd off] s = .next t ∧
      toVal t.res0 = exact16 (BitVec.ofInt 16 (storedSample neg mag)) ∧
      (BitVec.ofInt 16 (storedSample neg mag)).toInt = storedSample neg mag

/-- 41_work_area.md R76, R79: `WA_ADV` moves the base by `n` modulo the size and changes nothing else. -/
def Obligations.WaAdvMovesTheBase : Prop :=
  ∀ (n : Half) (s : State), s.wa.Inv →
    ∃ b : Half, exec (.waAdv n) s = .next { s with wa := { s.wa with base := b } } ∧
      b.toNat = (s.wa.base.toNat + n.toNat) % s.wa.size

/-- 41_work_area.md R73, R74, R75, R80: `WA_RESIZE` takes the least power of two that holds half the bytes, rounded up and at
least one sample, sets the mask, clears every sample and the base, and changes nothing else; the size is at most 32768
(R74, an inference the spec marks as derived). -/
def Obligations.WaResizeClearsToTheLeastPowerOfTwo : Prop :=
  ∀ (bytes : Half) (s : State), ∃ k, ∃ w : WorkArea,
    exec (.waResize bytes) s = .next { s with wa := w } ∧
      w.size = 2 ^ k ∧ max ((bytes.toNat + 1) / 2) 1 ≤ 2 ^ k ∧
      (∀ j, max ((bytes.toNat + 1) / 2) 1 ≤ 2 ^ j → k ≤ j) ∧ 2 ^ k ≤ 32768 ∧
      w.mask.toNat = 2 ^ k - 1 ∧ w.base = 0#16 ∧ ∀ a, w.read a = 0#16

/-- 20_memory.md R32: the conversion of a value to a stored sample. -/
def Obligations.ToS16TruncatesAndSaturates : Prop :=
  ∀ v : FVal,
    (v = .nan → toS16 v = 0#16) ∧
    (fle (whole false 32767) v = true → (toS16 v).toInt = 32767) ∧
    (fle v (whole true 32768) = true → (toS16 v).toInt = -32768) ∧
    (∀ neg mag, v = .num neg mag → flt v (whole false 32767) = true → flt (whole true 32768) v = true →
      (toS16 v).toInt = if neg then -((mag / 2 ^ 149 : Nat) : Int) else ((mag / 2 ^ 149 : Nat) : Int))

/-! ### The half-band filters -/

/-- 40_halfband.md R61: a push writes at the cursor, then advances it modulo 64. -/
def Obligations.PushWritesThenAdvances : Prop := ∀ (r : Ring) (v : F32), Pushed r v (r.push v)

/-- 40_halfband.md R64, R66, R70: `HB_DEC` pushes both samples into its channel's down ring, `x0` first, and returns the
sum over all 39 taps; every other ring, `RES1`, the Work Area and the rest are unchanged. A NaN sum has some NaN encoding
in `RES0`, `n` is the model's counter of those (log 5). -/
def Obligations.HbDecPushesTwoAndReturnsTheFullSum : Prop :=
  ∀ (ch : Channel) (x0 x1 : F32) (s : State), isFinite x0 = true → isFinite x1 = true →
    ∃ r1 r2 w n,
      exec (.hbDec ch x0 x1) s = .next { s with
        hb := (match ch with | .left => { s.hb with downL := r2 } | .right => { s.hb with downR := r2 })
        res0 := w, freeCount := n } ∧
      Pushed (match ch with | .left => s.hb.downL | .right => s.hb.downR) x0 r1 ∧ Pushed r1 x1 r2 ∧
      toVal w = specSum Config.hbCoeff allK r2

/-- 40_halfband.md R67, R69, R70: `HB_INT` pushes `y` into its channel's up ring and returns twice the sum over the even
taps, then pushes `+0.0` and returns twice the sum over the odd taps; everything else is unchanged but
`n`, the model's counter of free NaN encodings (log 5). -/
def Obligations.HbIntReturnsBothPhases : Prop :=
  ∀ (ch : Channel) (y : F32) (s : State), isFinite y = true →
    ∃ r1 r2 w0 w1 n,
      exec (.hbInt ch y) s = .next { s with
        hb := (match ch with | .left => { s.hb with upL := r2 } | .right => { s.hb with upR := r2 })
        res0 := w0, res1 := w1, freeCount := n } ∧
      Pushed (match ch with | .left => s.hb.upL | .right => s.hb.upR) y r1 ∧ Pushed r1 0#32 r2 ∧
      toVal w0 = fmul (specSum Config.hbCoeff evenK r1) (whole false 2) ∧
      toVal w1 = fmul (specSum Config.hbCoeff oddK r2) (whole false 2)

/-- 40_halfband.md R71: a decimation depends on the 37 most recent samples of the ring and on its two inputs only. -/
def Obligations.DecimationForgetsOldSamples : Prop :=
  ∀ (coeff : Nat → F32) (r q : Ring) (x0 x1 : F32),
    (∀ k, 2 ≤ k → k < 39 → windowSample r k = windowSample q k) →
      decimateOut coeff r x0 x1 = decimateOut coeff q x0 x1

/-- 40_halfband.md R68: where the skipped slots hold `+0.0`, each phase sum is the full sum but for the sign of a zero. -/
def Obligations.PhaseSumsAreFullSumsOnAStuffedRing : Prop :=
  ∀ (coeff : Nat → F32) (r : Ring), (∀ k, k < 39 → isFinite (coeff k) = true) →
    ((∀ k, k < 39 → k % 2 = 1 → windowSample r k = 0#32) →
      SameButZeroSign (specSum coeff evenK r) (specSum coeff allK r)) ∧
    ((∀ k, k < 39 → k % 2 = 0 → windowSample r k = 0#32) →
      SameButZeroSign (specSum coeff oddK r) (specSum coeff allK r))

/-! ### The parameter scaler -/

/-- 42_preset_scaler.md R81, R82: every scaled gain is exactly raw / 32768, every address and offset is copied. -/
def Obligations.ScaleIsExact : Prop :=
  ∀ p : RawPreset,
    (scale p).dAPF1 = p.dAPF1 ∧
    (scale p).dAPF2 = p.dAPF2 ∧
    toVal (scale p).vIIR = exact16 p.vIIR ∧
    toVal (scale p).vCOMB1 = exact16 p.vCOMB1 ∧
    toVal (scale p).vCOMB2 = exact16 p.vCOMB2 ∧
    toVal (scale p).vCOMB3 = exact16 p.vCOMB3 ∧
    toVal (scale p).vCOMB4 = exact16 p.vCOMB4 ∧
    toVal (scale p).vWALL = exact16 p.vWALL ∧
    toVal (scale p).vAPF1 = exact16 p.vAPF1 ∧
    toVal (scale p).vAPF2 = exact16 p.vAPF2 ∧
    (scale p).dLSAME = p.dLSAME ∧
    (scale p).dRSAME = p.dRSAME ∧
    (scale p).mLSAME = p.mLSAME ∧
    (scale p).mRSAME = p.mRSAME ∧
    (scale p).dLDIFF = p.dLDIFF ∧
    (scale p).dRDIFF = p.dRDIFF ∧
    (scale p).mLDIFF = p.mLDIFF ∧
    (scale p).mRDIFF = p.mRDIFF ∧
    (scale p).mLCOMB1 = p.mLCOMB1 ∧
    (scale p).mRCOMB1 = p.mRCOMB1 ∧
    (scale p).mLCOMB2 = p.mLCOMB2 ∧
    (scale p).mRCOMB2 = p.mRCOMB2 ∧
    (scale p).mLCOMB3 = p.mLCOMB3 ∧
    (scale p).mRCOMB3 = p.mRCOMB3 ∧
    (scale p).mLCOMB4 = p.mLCOMB4 ∧
    (scale p).mRCOMB4 = p.mRCOMB4 ∧
    (scale p).mLAPF1 = p.mLAPF1 ∧
    (scale p).mRAPF1 = p.mRAPF1 ∧
    (scale p).mLAPF2 = p.mLAPF2 ∧
    (scale p).mRAPF2 = p.mRAPF2 ∧
    toVal (scale p).vLIN = exact16 p.vLIN ∧
    toVal (scale p).vRIN = exact16 p.vRIN ∧
    toVal (scale p).vLOUT = exact16 p.vLOUT ∧
    toVal (scale p).vROUT = exact16 p.vROUT

/-- 42_preset_scaler.md R83, 44_parameter_controller.md R102, R103: the five gains `Derive` computes, for every base and
every control value, NaN among them; every other field is the base's. -/
def Obligations.DeriveComputesFiveGains : Prop :=
  ∀ (b : Scaled) (d g l : F32), ∃ w i0 i1 o0 o1 : F32,
    derive b d g l = { b with vWALL := w, vLIN := i0, vRIN := i1, vLOUT := o0, vROUT := o1 } ∧
    toVal w = fclamp (fmul (toVal b.vWALL) (wallScale (toVal d) (toVal b.vWALL))) (toVal 0xBF7EB852#32)
      (toVal 0x3F7EB852#32) ∧
    toVal i0 = fmul (toVal b.vLIN) (fmul (toVal g) (whole false 2)) ∧
    toVal i1 = fmul (toVal b.vRIN) (fmul (toVal g) (whole false 2)) ∧
    toVal o0 = fmul (toVal b.vLOUT) (fmul (toVal l) (whole false 4)) ∧
    toVal o1 = fmul (toVal b.vROUT) (fmul (toVal l) (whole false 4))

/-- 42_preset_scaler.md R85: `PS_APPLY` clamps the index, scales the preset into `BASE`, clears and resizes the Work
Area, derives `CUR` from the kept controls, and leaves the rings, the results and `STATUS`. -/
def Obligations.PsApplySelectsThePreset : Prop :=
  ∀ (idx : Half) (s : State), ∃ (i : Fin 6) (w : WorkArea),
    exec (.psApply idx) s = .next { s with
      ctl := { s.ctl with presetIdx := i }
      base := scale (Config.presetTable i)
      cur := derive (scale (Config.presetTable i)) s.ctl.decay s.ctl.ingain s.ctl.revlvl
      wa := w } ∧
    ((i.val : Nat) : Int) = max 0 (min 5 idx.toInt) ∧
    w.size = sizeFor (Config.presetTable i).sizeBytes.toNat ∧ w.mask.toNat = w.size - 1 ∧ w.base = 0#16 ∧
    ∀ a, w.read a = 0#16

/-- 42_preset_scaler.md R86: `PS_DERIVE` recomputes `CUR`, and changes nothing where `CUR` is already derived. -/
def Obligations.PsDeriveRecomputesCur : Prop :=
  ∀ s : State,
    exec .psDerive s = .next { s with cur := derive s.base s.ctl.decay s.ctl.ingain s.ctl.revlvl } ∧
      (Coherent s → exec .psDerive s = .next s)

/-- 44_parameter_controller.md R104, R105: `PS_DECAY` stores the clamped value and derives `CUR`; where `CUR` was derived
only `vWALL` changes in it. A NaN changes nothing. -/
def Obligations.PsDecaySetsTheDecay : Prop :=
  ∀ (v : F32) (s : State),
    (isNaN v = true → exec (.psDecay v) s = .next s) ∧
      (isNaN v = false → ∃ d, ClampedTo01 v d ∧
        exec (.psDecay v) s = .next { s with
          ctl := { s.ctl with decay := d }, cur := derive s.base d s.ctl.ingain s.ctl.revlvl } ∧
        (Coherent s → ∃ g, exec (.psDecay v) s = .next { s with
          ctl := { s.ctl with decay := d }, cur := { s.cur with vWALL := g } }))

/-- 44_parameter_controller.md R104, R106: `PS_INGAIN` stores the clamped value and derives `CUR`; where `CUR` was
derived only `vLIN` and `vRIN` change in it. A NaN changes nothing. -/
def Obligations.PsIngainSetsTheInputGain : Prop :=
  ∀ (v : F32) (s : State),
    (isNaN v = true → exec (.psIngain v) s = .next s) ∧
      (isNaN v = false → ∃ d, ClampedTo01 v d ∧
        exec (.psIngain v) s = .next { s with
          ctl := { s.ctl with ingain := d }, cur := derive s.base s.ctl.decay d s.ctl.revlvl } ∧
        (Coherent s → ∃ l r, exec (.psIngain v) s = .next { s with
          ctl := { s.ctl with ingain := d }, cur := { s.cur with vLIN := l, vRIN := r } }))

/-- 44_parameter_controller.md R104, R107: `PS_REVLVL` stores the clamped value and derives `CUR`; where `CUR` was
derived only `vLOUT` and `vROUT` change in it. A NaN changes nothing. -/
def Obligations.PsRevlvlSetsTheReverbLevel : Prop :=
  ∀ (v : F32) (s : State),
    (isNaN v = true → exec (.psRevlvl v) s = .next s) ∧
      (isNaN v = false → ∃ d, ClampedTo01 v d ∧
        exec (.psRevlvl v) s = .next { s with
          ctl := { s.ctl with revlvl := d }, cur := derive s.base s.ctl.decay s.ctl.ingain d } ∧
        (Coherent s → ∃ l r, exec (.psRevlvl v) s = .next { s with
          ctl := { s.ctl with revlvl := d }, cur := { s.cur with vLOUT := l, vROUT := r } }))

/-- 44_parameter_controller.md R104, R108: `PS_MIX` stores the clamped value and touches nothing else; a NaN changes
nothing. -/
def Obligations.PsMixSetsTheMix : Prop :=
  ∀ (v : F32) (s : State),
    (isNaN v = true → exec (.psMix v) s = .next s) ∧
      (isNaN v = false → ∃ d, ClampedTo01 v d ∧ inUnit d = true ∧
        exec (.psMix v) s = .next { s with ctl := { s.ctl with mix := d } })

/-- 42_preset_scaler.md R84: setters in any order, or twice with the same value, leave the same state. -/
def Obligations.SettersCommuteAndRepeatHarmlessly : Prop :=
  ∀ (d g l m : F32) (s : State),
    (∀ i ∈ [Instr.psDecay d, .psIngain g, .psRevlvl l, .psMix m],
      runInstrs [i, i] s = runInstrs [i] s) ∧
    (∀ i ∈ [Instr.psDecay d, .psIngain g, .psRevlvl l, .psMix m],
      ∀ j ∈ [Instr.psDecay d, .psIngain g, .psRevlvl l, .psMix m],
        runInstrs [i, j] s = runInstrs [j, i] s)

/-- 30_encoding.md R57, 92_eei_decisions.md D34: the end state of `STATE_RESTORE` does not depend on the order of its
last four commands. -/
def Obligations.RestoreOrderDoesNotMatter : Prop :=
  ∀ (p : Half) (d m g l : F32) (s : State) (is : List Instr),
    is.Perm [.psDecay d, .psIngain g, .psRevlvl l, .psMix m] →
      runInstrs (.psApply p :: is) s = runInstrs (stateRestore p d m g l) s

/-- 45_pipeline_and_host.md R124: the five saved control values, restored from any state, bring back the controls,
`BASE` and `CUR`. -/
def Obligations.RestoreBringsBackControlsAndPresets : Prop :=
  ∀ s u : State, Coherent s → s.ctl.Legal →
    ∃ t, runInstrs (stateRestore (BitVec.ofNat 16 s.ctl.presetIdx.val) s.ctl.decay s.ctl.mix s.ctl.ingain
        s.ctl.revlvl) u = .next t ∧ t.ctl = s.ctl ∧ t.base = s.base ∧ t.cur = s.cur

/-- 44_parameter_controller.md R109: the wall gain stays within ±0.995 for every decay and every preset. -/
def Obligations.WallGainStaysWithinBounds : Prop :=
  ∀ s : State, Coherent s → s.ctl.Legal →
    fle (toVal 0xBF7EB852#32) (toVal s.cur.vWALL) = true ∧ fle (toVal s.cur.vWALL) (toVal 0x3F7EB852#32) = true

/-- 10_state.md R22: the ranges of the gains of `BASE` and `CUR`. -/
def Obligations.GainsStayInTheirRanges : Prop :=
  ∀ s : State, Coherent s → s.ctl.Legal →
    (∀ g ∈ allGains s.base, InRange (whole true 1) (whole false 1) g) ∧
    (∀ g ∈ plainGains s.cur, InRange (whole true 1) (whole false 1) g) ∧
    (fle (toVal 0xBF7EB852#32) (toVal s.cur.vWALL) = true ∧ fle (toVal s.cur.vWALL) (toVal 0x3F7EB852#32) = true) ∧
    (∀ g ∈ [s.cur.vLIN, s.cur.vRIN], InRange (whole true 2) (whole false 2) g) ∧
    (∀ g ∈ [s.cur.vLOUT, s.cur.vROUT], InRange (whole true 4) (whole false 4) g)

/-- 44_parameter_controller.md R102, R103: the decay scale is 0.5 at 0, 1.0 at 0.5, and the maximum scale of every raw
wall gain lies from 0.99 to 10. -/
def Obligations.DecayScaleEndPoints : Prop :=
  ∀ raw : Half,
    decayScale (toVal 0#32) (exact16 raw) = toVal 0x3F000000#32 ∧
    decayScale (toVal 0x3F000000#32) (exact16 raw) = toVal 0x3F800000#32 ∧
    decayScale (toVal 0x3F800000#32) (exact16 raw) =
      fadd (toVal 0x3F800000#32) (fsub (maxScale (exact16 raw)) (toVal 0x3F800000#32)) ∧
    fle (toVal 0x3F7D70A4#32) (maxScale (exact16 raw)) = true ∧
    fle (maxScale (exact16 raw)) (toVal 0x41200000#32) = true ∧
    maxScale (exact16 0#16) = toVal 0x41200000#32

/-- 44_parameter_controller.md R110: the decay scale does not fall as the decay rises, for a wall gain of magnitude at
most 0.99. -/
def Obligations.DecayScaleIsMonotone : Prop :=
  ∀ (raw : Half) (d e : F32), raw.toInt.natAbs ≤ 32440 → inUnit d = true → inUnit e = true →
    fle (toVal d) (toVal e) = true →
      fle (decayScale (toVal d) (exact16 raw)) (decayScale (toVal e) (exact16 raw)) = true

/-- 44_parameter_controller.md R106, R107: an input gain of 0.5 is unity and of 1.0 doubles exactly; a reverb level of
0.5 doubles and of 1.0 quadruples exactly. -/
def Obligations.GainControlsScaleExactly : Prop :=
  ∀ (raw : Half) (g : F32), toVal g = exact16 raw →
    inputGain 0x3F000000#32 g = g ∧
    toVal (inputGain 0x3F800000#32 g) = .num (decide (raw.toInt < 0)) (raw.toInt.natAbs * 2 ^ 135) ∧
    toVal (outputGain 0x3F000000#32 g) = .num (decide (raw.toInt < 0)) (raw.toInt.natAbs * 2 ^ 135) ∧
    toVal (outputGain 0x3F800000#32 g) = .num (decide (raw.toInt < 0)) (raw.toInt.natAbs * 2 ^ 136)

/-! ### The reverb tick -/

/-- 43_reverb_tick.md R96, R98, R100: `RV_TICK` of finite operands changes the RAM at most at the eight write addresses,
moves the base by one, returns the two outputs, and changes nothing else; `n` is the model's counter of free
NaN encodings (log 5). -/
def Obligations.RvTickWritesEightSamplesAndAdvances : Prop :=
  ∀ (xL xR : F32) (s : State), s.wa.Inv → isFinite xL = true → isFinite xR = true →
    ∃ (w0 w1 : F32) (n : Nat),
      let tk := tick s.cur (toVal xL) (toVal xR) s.wa
      exec (.rvTick xL xR) s = .next { s with wa := tk.wa, res0 := w0, res1 := w1, freeCount := n } ∧
      toVal w0 = tk.outL ∧ toVal w1 = tk.outR ∧
      tk.wa.size = s.wa.size ∧ tk.wa.mask = s.wa.mask ∧ tk.wa.base.toNat = (s.wa.base.toNat + 1) % s.wa.size ∧
      ∀ a, a ∉ tickWrites s.cur s.wa → tk.wa.read a = s.wa.read a

/-- 43_reverb_tick.md R89 to R98, 20_memory.md R41: where no address aliases, the tick is the closed formula in which
every read but the read-backs of the all-pass stages sees the prior tick's content. -/
def Obligations.TickWithoutAliasingSeesThePriorTick : Prop :=
  ∀ (c : Scaled) (xL xR : FVal) (w : WorkArea), w.ram.wf = true → NoAliasing c w →
    let lin := fmul xL (toVal c.vLIN)
    let rin := fmul xR (toVal c.vRIN)
    let cL := fourCombs c (w.rr c.mLCOMB1.toNat) (w.rr c.mLCOMB2.toNat) (w.rr c.mLCOMB3.toNat) (w.rr c.mLCOMB4.toNat)
    let cR := fourCombs c (w.rr c.mRCOMB1.toNat) (w.rr c.mRCOMB2.toNat) (w.rr c.mRCOMB3.toNat) (w.rr c.mRCOMB4.toNat)
    let dL1 := w.rr ((c.mLAPF1.toNat : Int) - c.dAPF1.toNat)
    let dR1 := w.rr ((c.mRAPF1.toNat : Int) - c.dAPF1.toNat)
    let dL2 := w.rr ((c.mLAPF2.toNat : Int) - c.dAPF2.toNat)
    let dR2 := w.rr ((c.mRAPF2.toNat : Int) - c.dAPF2.toNat)
    let aL := apOutput (toVal c.vAPF1) cL dL1
    let aR := apOutput (toVal c.vAPF1) cR dR1
    let t := tick c xL xR w
    t.outL = fmul (apOutput (toVal c.vAPF2) aL dL2) (toVal c.vLOUT) ∧
    t.outR = fmul (apOutput (toVal c.vAPF2) aR dR2) (toVal c.vROUT) ∧
    t.wa.read (w.ea c.mLSAME.toNat) =
      quant16 (onePole c lin (w.rr c.dLSAME.toNat) (w.rr ((c.mLSAME.toNat : Int) - 1))) ∧
    t.wa.read (w.ea c.mRSAME.toNat) =
      quant16 (onePole c rin (w.rr c.dRSAME.toNat) (w.rr ((c.mRSAME.toNat : Int) - 1))) ∧
    t.wa.read (w.ea c.mLDIFF.toNat) =
      quant16 (onePole c lin (w.rr c.dRDIFF.toNat) (w.rr ((c.mLDIFF.toNat : Int) - 1))) ∧
    t.wa.read (w.ea c.mRDIFF.toNat) =
      quant16 (onePole c rin (w.rr c.dLDIFF.toNat) (w.rr ((c.mRDIFF.toNat : Int) - 1))) ∧
    t.wa.read (w.ea c.mLAPF1.toNat) = quant16 (apWritten (toVal c.vAPF1) cL dL1) ∧
    t.wa.read (w.ea c.mRAPF1.toNat) = quant16 (apWritten (toVal c.vAPF1) cR dR1) ∧
    t.wa.read (w.ea c.mLAPF2.toNat) = quant16 (apWritten (toVal c.vAPF2) aL dL2) ∧
    t.wa.read (w.ea c.mRAPF2.toNat) = quant16 (apWritten (toVal c.vAPF2) aR dR2)

/-- 43_reverb_tick.md R89 to R98, 20_memory.md R41, 70_reset_and_hazards.md R147: the tick is its steps in their order, for
every preset and every size, aliasing or not: `w1` to `w8` are the Work Area after each of the eight writes, and every
read is made in the area that the write before it left. -/
def Obligations.TickIsItsStepsInOrder : Prop :=
  ∀ (c : Scaled) (xL xR : FVal) (w : WorkArea), w.Inv → ∃ w1 w2 w3 w4 w5 w6 w7 w8 : WorkArea,
    let lin := fmul xL (toVal c.vLIN)
    let rin := fmul xR (toVal c.vRIN)
    let cL := fourCombs c (sampleAt w4 c.mLCOMB1.toNat) (sampleAt w4 c.mLCOMB2.toNat) (sampleAt w4 c.mLCOMB3.toNat)
      (sampleAt w4 c.mLCOMB4.toNat)
    let cR := fourCombs c (sampleAt w4 c.mRCOMB1.toNat) (sampleAt w4 c.mRCOMB2.toNat) (sampleAt w4 c.mRCOMB3.toNat)
      (sampleAt w4 c.mRCOMB4.toNat)
    let dL1 := sampleAt w4 ((c.mLAPF1.toNat : Int) - c.dAPF1.toNat)
    let aL := fadd (fmul (sampleAt w5 c.mLAPF1.toNat) (toVal c.vAPF1)) dL1
    let dR1 := sampleAt w5 ((c.mRAPF1.toNat : Int) - c.dAPF1.toNat)
    let aR := fadd (fmul (sampleAt w6 c.mRAPF1.toNat) (toVal c.vAPF1)) dR1
    let dL2 := sampleAt w6 ((c.mLAPF2.toNat : Int) - c.dAPF2.toNat)
    let bL := fadd (fmul (sampleAt w7 c.mLAPF2.toNat) (toVal c.vAPF2)) dL2
    let dR2 := sampleAt w7 ((c.mRAPF2.toNat : Int) - c.dAPF2.toNat)
    let bR := fadd (fmul (sampleAt w8 c.mRAPF2.toNat) (toVal c.vAPF2)) dR2
    let t := tick c xL xR w
    Stored w c.mLSAME.toNat
      (onePole c lin (sampleAt w c.dLSAME.toNat) (sampleAt w ((c.mLSAME.toNat : Int) - 1))) w1 ∧
    Stored w1 c.mRSAME.toNat
      (onePole c rin (sampleAt w1 c.dRSAME.toNat) (sampleAt w1 ((c.mRSAME.toNat : Int) - 1))) w2 ∧
    Stored w2 c.mLDIFF.toNat
      (onePole c lin (sampleAt w2 c.dRDIFF.toNat) (sampleAt w2 ((c.mLDIFF.toNat : Int) - 1))) w3 ∧
    Stored w3 c.mRDIFF.toNat
      (onePole c rin (sampleAt w3 c.dLDIFF.toNat) (sampleAt w3 ((c.mRDIFF.toNat : Int) - 1))) w4 ∧
    Stored w4 c.mLAPF1.toNat (apWritten (toVal c.vAPF1) cL dL1) w5 ∧
    Stored w5 c.mRAPF1.toNat (apWritten (toVal c.vAPF1) cR dR1) w6 ∧
    Stored w6 c.mLAPF2.toNat (apWritten (toVal c.vAPF2) aL dL2) w7 ∧
    Stored w7 c.mRAPF2.toNat (apWritten (toVal c.vAPF2) aR dR2) w8 ∧
    (t.wa.size = w.size ∧ t.wa.mask = w.mask ∧ t.wa.base.toNat = (w.base.toNat + 1) % w.size ∧
      ∀ a, t.wa.read a = w8.read a) ∧
    t.outL = fmul bL (toVal c.vLOUT) ∧ t.outR = fmul bR (toVal c.vROUT)

/-- 43_reverb_tick.md R91: after the advance, the address of `m − 1` is the one that was `m` before it. -/
def Obligations.PriorOutputIsWhereTheLastTickWrote : Prop :=
  ∀ (w : WorkArea) (m : Half), w.Inv → (w.advance 1).ea ((m.toNat : Int) - 1) = w.ea m.toNat

/-! ### The frame-pair pipeline -/

/-- 45_pipeline_and_host.md R116, R118, R119: `PROCESS_PAIR` decimates both channels, runs one tick, interpolates both
outputs and mixes each with its own dry sample; it writes the rings, the Work Area and the results, nothing else;
`n` is the model's counter of free NaN encodings (log 5). -/
def Obligations.ProcessPairRunsTheWholeCore : Prop :=
  ∀ (f0 f1 : Word) (s : State),
    ∃ (l0 l1 r0 r1 oL oR : F32) (dl1 dl2 dr1 dr2 ul1 ul2 ur1 ur2 : Ring) (w0 w1 : Word) (n : Nat),
      let tk := tick s.cur (specSum Config.hbCoeff allK dl2) (specSum Config.hbCoeff allK dr2) s.wa
      let m := toVal s.ctl.mix
      exec (.processPair f0 f1) s = .next { s with
        hb := ⟨dl2, dr2, ul2, ur2⟩, wa := tk.wa, res0 := w0, res1 := w1, freeCount := n } ∧
      toVal l0 = exact16 (f0.extractLsb' 0 16) ∧ toVal r0 = exact16 (f0.extractLsb' 16 16) ∧
      toVal l1 = exact16 (f1.extractLsb' 0 16) ∧ toVal r1 = exact16 (f1.extractLsb' 16 16) ∧
      Pushed s.hb.downL l0 dl1 ∧ Pushed dl1 l1 dl2 ∧ Pushed s.hb.downR r0 dr1 ∧ Pushed dr1 r1 dr2 ∧
      toVal oL = tk.outL ∧ toVal oR = tk.outR ∧
      Pushed s.hb.upL oL ul1 ∧ Pushed ul1 0#32 ul2 ∧ Pushed s.hb.upR oR ur1 ∧ Pushed ur1 0#32 ur2 ∧
      w0.extractLsb' 0 16 =
        mixedSample m (exact16 (f0.extractLsb' 0 16)) (fmul (specSum Config.hbCoeff evenK ul1) (whole false 2)) ∧
      w0.extractLsb' 16 16 =
        mixedSample m (exact16 (f0.extractLsb' 16 16)) (fmul (specSum Config.hbCoeff evenK ur1) (whole false 2)) ∧
      w1.extractLsb' 0 16 =
        mixedSample m (exact16 (f1.extractLsb' 0 16)) (fmul (specSum Config.hbCoeff oddK ul2) (whole false 2)) ∧
      w1.extractLsb' 16 16 =
        mixedSample m (exact16 (f1.extractLsb' 16 16)) (fmul (specSum Config.hbCoeff oddK ur2) (whole false 2))

/-- 45_pipeline_and_host.md R121: at a mix of `+0.0` each output sample is the input sample, for every finite wet
value. -/
def Obligations.DryMixReturnsTheInputSample : Prop :=
  ∀ (q : Half) (neg : Bool) (mag : Nat), mixQ (toVal 0#32) (exact16 q) (.num neg mag) = q

/-- 45_pipeline_and_host.md R120: with every sample 0 and every ring slot `±0.0`, silence gives silence and leaves
silence, for finite gains and a legal mix. -/
def Obligations.SilenceGivesSilence : Prop :=
  ∀ s : State, s.wa.ram.wf = true → (∀ a, s.wa.read a = 0#16) → (∀ h : RingSel, SilentRing (s.hb.get h)) →
    GainsFinite s.cur = true → inUnit s.ctl.mix = true →
      ∃ t, exec (.processPair 0#32 0#32) s = .next t ∧ t.res0 = 0#32 ∧ t.res1 = 0#32 ∧
        (∀ a, t.wa.read a = 0#16) ∧ ∀ h : RingSel, SilentRing (t.hb.get h)

/-- 30_encoding.md R57, 45_pipeline_and_host.md R122: a block of `N` frames is `N / 2` `PROCESS_PAIR` commands in order;
a final unpaired frame issues nothing. -/
def Obligations.BlockIsItsPairsInOrder : Prop :=
  ∀ fs : List Word, (processBlock fs).length = fs.length / 2 ∧
    ∀ (i : Nat) (h : 2 * i + 1 < fs.length),
      (processBlock fs)[i]? = some (.processPair (fs[2 * i]'(by omega)) fs[2 * i + 1])

/-! ### Arithmetic -/

/-- 00_scope.md R8, 92_eei_decisions.md D5, D29: the rounding gives a representable number nearest to the exact value, on a
tie the one with the even significand, and an infinity exactly from half a step above the greatest number on; every
operation is that rounding of its exact result with the right sign, and the special operands have their IEEE-754
results. -/
def Obligations.RoundingIsToNearestEven : Prop :=
  (∀ (neg : Bool) (n d : Nat), 0 < d →
    (n < (2 ^ 277 - 2 ^ 252) * d → ∃ k, roundMag neg n d = .num neg k ∧ Representable k ∧
      (∀ j, Representable j → distance k n d ≤ distance j n d) ∧
      (∀ j, Representable j → j ≠ k → distance j n d = distance k n d →
        ∃ e m, k = 2 * m * 2 ^ e ∧ (j = (2 * m + 1) * 2 ^ e ∨ j + 2 ^ e = k))) ∧
    ((2 ^ 277 - 2 ^ 252) * d ≤ n → roundMag neg n d = .inf neg)) ∧
  SumIsExactThenRounded ∧ ProductIsExactThenRounded ∧ QuotientIsExactThenRounded ∧ ComparisonsAreExact

/-- 30_encoding.md R52: encodings and values correspond; every NaN encoding can be the free encoding of a NaN result, and
every free encoding is a NaN. -/
def Obligations.EncodingsAndValuesCorrespond : Prop :=
  (∀ w : F32, isNaN w = false → pack (toVal w) = w) ∧
    (∀ (neg : Bool) (k : Nat), Representable k → toVal (pack (.num neg k)) = .num neg k) ∧
    (∀ w : F32, isNaN w = true ↔ toVal w = .nan) ∧ (∀ w : F32, isNaN w = true → nanOf w = w) ∧
    (∀ w : Word, toVal (nanOf w) = .nan)

/-! ### Invariants every step keeps

While `cmd_ready` is 0 the reset sequence is still to come and an abandoned command may have left any values (log 10), so
the invariants speak of the states in which `cmd_ready` is 1. -/

/-- 10_state.md R25: size, mask and base of the Work Area; and, the model's own (log 7), the canonical form of its RAM,
which every step keeps even in reset. -/
def Obligations.StepKeepsTheWorkAreaInvariant : Prop :=
  ∀ s t : State, s.wa.ram.wf = true → (s.cmdReady = true → s.wa.Inv) → step s = .next t →
    t.wa.ram.wf = true ∧ (t.cmdReady = true → t.wa.Inv)

/-- 10_state.md R20, R21: `BASE` is the scaled selected preset and `CUR` is derived from it and the controls. -/
def Obligations.StepKeepsBaseAndCurDerived : Prop :=
  ∀ s t : State, (s.cmdReady = true → Coherent s) → step s = .next t → t.cmdReady = true → Coherent t

/-- 10_state.md R16, R17: `STATUS` keeps its form and every control its range; bits 31:8 stay zero even in reset. -/
def Obligations.StepKeepsStatusAndControlsLegal : Prop :=
  ∀ s t : State, s.status.extractLsb' 8 24 = 0#24 → (s.cmdReady = true → StatusLegal s.status ∧ s.ctl.Legal) →
    step s = .next t →
      t.status.extractLsb' 8 24 = 0#24 ∧ (t.cmdReady = true → StatusLegal t.status ∧ t.ctl.Legal)

/-- 60_exceptions.md R129: a step other than a reset never clears an error bit of `STATUS`. -/
def Obligations.ErrorBitsStaySetUntilReset : Prop :=
  ∀ (s t : State) (c : CmdWords) (rest : List HostDrive) (b : Nat), b < 4 →
    s.host = ⟨true, true, c, false⟩ :: rest → s.cmdReady = true → decode c ≠ .ok .init → step s = .next t →
      s.status.getLsbD b = true → t.status.getLsbD b = true

/-- The invariants hold at reset (70_reset_and_hazards.md R138). That the RAM has its canonical form, a part of the Work
Area's invariant, is the model's own (log 7). -/
def Obligations.ResetMeetsTheInvariants : Prop :=
  State.reset.wa.Inv ∧ Coherent State.reset ∧ StatusLegal State.reset.status ∧ State.reset.ctl.Legal
end

