-- ==== Sys2Proof/Laws/Float.lean ====
section
/-! SUPPORT. The laws of the binary32 operations: what rounding does to a number that needs none, NaN operands, the
order of operands, the bounds a clamp gives, and which encodings are finite (00_scope.md R8, R10). -/

namespace Sys2Proof.Machine

/-! ### Rounding -/

/-- An exact quotient is not rounded. -/
theorem roundEven_mul (q : Nat) {d : Nat} (hd : 0 < d) : roundEven (q * d) d = q := by
  simp [roundEven, hd]

/-- The rounded quotient is the quotient or the next number. -/
theorem roundEven_eq_or (n d : Nat) : roundEven n d = n / d ∨ roundEven n d = n / d + 1 := by
  unfold roundEven
  rcases Nat.mod_two_eq_zero_or_one (n / d) with h | h <;> split <;> try split
  all_goals simp [h]

/-- A magnitude of at most 24 significant bits below 2^128 is its own rounding. -/
theorem roundMag_exact (neg : Bool) (m e : Nat) {d : Nat} (hd : 0 < d) (hm : m < 2 ^ 24) (hlt : m * 2 ^ e < 2 ^ 277) :
    roundMag neg (m * 2 ^ e * d) d = .num neg (m * 2 ^ e) := by
  have he : (m * 2 ^ e).log2 - 23 ≤ e := by
    rcases Nat.eq_zero_or_pos m with rfl | hpos
    · simp
    · have hne : m * 2 ^ e ≠ 0 := Nat.mul_ne_zero hpos.ne' (Nat.two_pow_pos e).ne'
      have : (m * 2 ^ e).log2 < 24 + e := by
        rw [Nat.log2_lt hne, Nat.pow_add]
        exact Nat.mul_lt_mul_of_pos_right hm (Nat.two_pow_pos e)
      omega
  obtain ⟨f, hf⟩ := Nat.exists_eq_add_of_le he
  have hsplit : m * 2 ^ e = m * 2 ^ f * 2 ^ ((m * 2 ^ e).log2 - 23) := by
    conv_lhs => rw [hf, Nat.pow_add]
    ring
  have hround : roundEven (m * 2 ^ e * d) (d * 2 ^ ((m * 2 ^ e).log2 - 23)) = m * 2 ^ f := by
    conv_lhs => rw [hsplit, show m * 2 ^ f * 2 ^ ((m * 2 ^ e).log2 - 23) * d =
      m * 2 ^ f * (d * 2 ^ ((m * 2 ^ e).log2 - 23)) by ring]
    rw [← hsplit]
    exact roundEven_mul _ (Nat.mul_pos hd (Nat.two_pow_pos _))
  simp only [roundMag, Nat.mul_div_cancel _ hd, hround, ← hsplit, if_pos hlt]

/-- Zero rounds to zero with its sign. -/
theorem roundMag_zero (neg : Bool) {d : Nat} (hd : 0 < d) : roundMag neg 0 d = .num neg 0 := by
  simpa using roundMag_exact neg 0 0 hd (by decide) (by rw [Nat.zero_mul]; positivity)

/-- Rounding never gives a NaN and keeps the sign. -/
theorem roundMag_cases (neg : Bool) (n d : Nat) :
    (∃ k, roundMag neg n d = .num neg k) ∨ roundMag neg n d = .inf neg := by
  unfold roundMag
  dsimp only
  split
  · exact .inl ⟨_, rfl⟩
  · exact .inr rfl

/-! ### NaN operands -/

@[simp] theorem fadd_nan_left (x : FVal) : fadd .nan x = .nan := by cases x <;> rfl
@[simp] theorem fadd_nan_right (x : FVal) : fadd x .nan = .nan := by cases x <;> rfl
@[simp] theorem fsub_nan_left (x : FVal) : fsub .nan x = .nan := fadd_nan_left _
@[simp] theorem fsub_nan_right (x : FVal) : fsub x .nan = .nan := fadd_nan_right x
@[simp] theorem fmul_nan_left (x : FVal) : fmul .nan x = .nan := by cases x <;> rfl
@[simp] theorem fmul_nan_right (x : FVal) : fmul x .nan = .nan := by cases x <;> rfl
@[simp] theorem fdiv_nan_left (x : FVal) : fdiv .nan x = .nan := by cases x <;> rfl
@[simp] theorem fdiv_nan_right (x : FVal) : fdiv x .nan = .nan := by cases x <;> rfl
@[simp] theorem flt_nan_left (x : FVal) : flt .nan x = false := by cases x <;> rfl
@[simp] theorem flt_nan_right (x : FVal) : flt x .nan = false := by cases x <;> rfl
@[simp] theorem fle_nan_left (x : FVal) : fle .nan x = false := by cases x <;> rfl
@[simp] theorem fle_nan_right (x : FVal) : fle x .nan = false := by cases x <;> rfl

/-- A NaN passes through a clamp. -/
@[simp] theorem fclamp_nan (lo hi : FVal) : fclamp .nan lo hi = .nan := by simp [fclamp]

@[simp] theorem quant16_nan : quant16 .nan = 0#16 := rfl

/-! ### The order of operands -/

theorem fadd_comm (x y : FVal) : fadd x y = fadd y x := by
  cases x <;> cases y <;> simp only [fadd, Int.add_comm, Bool.and_comm]
  rename_i a b
  cases a <;> cases b <;> rfl

theorem fmul_comm (x y : FVal) : fmul x y = fmul y x := by
  cases x <;> cases y <;> simp only [fmul, Nat.mul_comm, Bool.xor_comm]

/-! ### Comparisons and clamps -/

@[simp] theorem units_false (k : Nat) : units false k = k := rfl
@[simp] theorem units_true (k : Nat) : units true k = -(k : Int) := rfl

theorem fle_trans {x y z : FVal} (h : fle x y = true) (h' : fle y z = true) : fle x z = true := by
  rcases x with ⟨a, x⟩ | ⟨_ | _⟩ | _ <;> rcases y with ⟨b, y⟩ | ⟨_ | _⟩ | _ <;> rcases z with ⟨c, z⟩ | ⟨_ | _⟩ | _ <;>
    simp_all [fle]
  omega

/-- Of two values that are no NaN, one is less or the other is at most it. -/
theorem fle_of_not_flt {x y : FVal} (hx : x ≠ .nan) (hy : y ≠ .nan) (h : flt x y = false) : fle y x = true := by
  rcases x with ⟨a, x⟩ | ⟨_ | _⟩ | _ <;> rcases y with ⟨b, y⟩ | ⟨_ | _⟩ | _ <;> simp_all [fle, flt]

/-- What a clamp answers. -/
theorem fclamp_eq_or (v lo hi : FVal) :
    (flt v lo = true ∧ fclamp v lo hi = lo) ∨ (flt v lo = false ∧ flt hi v = true ∧ fclamp v lo hi = hi) ∨
      (flt v lo = false ∧ flt hi v = false ∧ fclamp v lo hi = v) := by
  unfold fclamp
  cases flt v lo <;> cases flt hi v <;> simp

/-- An integer clamp stays in its bounds. -/
theorem iclamp_mem {n lo hi : Int} (h : lo ≤ hi) : lo ≤ iclamp n lo hi ∧ iclamp n lo hi ≤ hi := by
  unfold iclamp
  split
  · omega
  · split <;> omega

/-! ### Encodings -/

/-- The check of the decoder's side and the one of the meanings are the same test. -/
theorem isFinite_eq_finiteOperand (w : F32) : isFinite w = finiteOperand w := rfl

/-- A finite encoding stands for a number. -/
theorem toVal_of_isFinite {w : F32} (h : isFinite w = true) : ∃ neg mag, toVal w = .num neg mag := by
  have hne : expField w ≠ 0xFF#8 := by simpa [isFinite] using h
  unfold toVal
  rw [if_neg hne]
  split
  · exact ⟨_, _, rfl⟩
  · exact ⟨_, _, rfl⟩

/-- A NaN encoding is not finite. -/
theorem isFinite_of_isNaN {w : F32} (h : isNaN w = true) : isFinite w = false := by
  simp only [isNaN, Bool.and_eq_true, beq_iff_eq] at h
  simp [isFinite, h.1]

@[simp] theorem packWith_nan (n : F32) : packWith n .nan = n := rfl

/-- Only a NaN draws a free encoding. -/
theorem nanDraws_eq_zero {v : FVal} (h : v ≠ .nan) : nanDraws v = 0 := by
  cases v <;> first | rfl | exact absurd rfl h

end Sys2Proof.Machine
end

