-- ==== Sys2Proof/Laws/Memory.lean ====
section
/-! SUPPORT. The laws of the sample RAM and of the Work Area primitives: read after write, the canonical form, the
effective address, and what each primitive changes (20_memory.md R28 to R31, 41_work_area.md R75, R76). -/

namespace Sys2Proof.Machine

/-! ### The canonical form -/

theorem Ram.wfFrom_cons {lo a : Nat} {q : Half} {m : Ram} :
    Ram.wfFrom lo ((a, q) :: m) = true ↔ lo ≤ a ∧ q ≠ 0#16 ∧ Ram.wfFrom (a + 1) m = true := by
  simp [Ram.wfFrom, and_assoc]

theorem Ram.wfFrom_mono {lo lo' : Nat} (h : lo' ≤ lo) : ∀ {m : Ram}, Ram.wfFrom lo m = true → Ram.wfFrom lo' m = true
  | [], _ => rfl
  | (a, q) :: m, hm => by
    rw [Ram.wfFrom_cons] at hm ⊢
    exact ⟨h.trans hm.1, hm.2⟩

/-- An address below every cell reads as 0. -/
theorem Ram.read_below {lo a : Nat} (h : a < lo) : ∀ {m : Ram}, Ram.wfFrom lo m = true → m.read a = 0#16
  | [], _ => rfl
  | (b, q) :: m, hm => by
    rw [Ram.wfFrom_cons] at hm
    have hab : a ≠ b := by omega
    simp only [Ram.read, hab, if_false]
    exact Ram.read_below (by omega) hm.2.2

theorem Ram.wfFrom_write {lo a : Nat} {q : Half} (h : lo ≤ a) :
    ∀ {m : Ram}, Ram.wfFrom lo m = true → Ram.wfFrom lo (m.write a q) = true
  | [], _ => by
    by_cases hq : q = 0#16 <;> simp [Ram.write, hq, Ram.wfFrom, h]
  | (b, r) :: m, hm => by
    have hc := Ram.wfFrom_cons.1 hm
    unfold Ram.write
    split
    · split
      · exact hm
      · exact Ram.wfFrom_cons.2 ⟨h, ‹_›, Ram.wfFrom_cons.2 ⟨by omega, hc.2⟩⟩
    · split
      · rename_i _ hab
        subst hab
        split
        · exact Ram.wfFrom_mono (by omega) hc.2.2
        · exact Ram.wfFrom_cons.2 ⟨h, ‹_›, hc.2.2⟩
      · exact Ram.wfFrom_cons.2 ⟨hc.1, hc.2.1, Ram.wfFrom_write (by omega) hc.2.2⟩

/-- A write keeps the canonical form. -/
theorem Ram.wf_write {m : Ram} (h : m.wf = true) (a : Nat) (q : Half) : (m.write a q).wf = true :=
  Ram.wfFrom_write (Nat.zero_le a) h

/-- Reading what was written, and any other address as before. -/
theorem Ram.read_write {lo : Nat} (a b : Nat) (q : Half) :
    ∀ {m : Ram}, Ram.wfFrom lo m = true → (m.write a q).read b = if b = a then q else m.read b
  | [], _ => by
    unfold Ram.write
    by_cases hq : q = 0#16 <;> by_cases hb : b = a <;> simp [hq, hb, Ram.read]
  | (c, r) :: m, hm => by
    have hc := Ram.wfFrom_cons.1 hm
    have hlow : ∀ x, x ≤ c → Ram.read m x = 0#16 := fun x hx =>
      Ram.read_below (Nat.lt_succ_of_le hx) hc.2.2
    unfold Ram.write
    by_cases hac : a < c
    · have hlow' : b = a → Ram.read ((c, r) :: m) b = 0#16 := by
        rintro rfl
        simp only [Ram.read, show b ≠ c by omega, if_false]
        exact hlow b (by omega)
      rw [if_pos hac]
      by_cases hq : q = 0#16
      · rw [if_pos hq]
        by_cases hb : b = a
        · rw [if_pos hb, hlow' hb, hq]
        · rw [if_neg hb]
      · rw [if_neg hq]
        by_cases hb : b = a <;> simp [Ram.read, hb]
    · rw [if_neg hac]
      by_cases hac' : a = c
      · subst hac'
        rw [if_pos rfl]
        by_cases hq : q = 0#16
        · rw [if_pos hq]
          by_cases hb : b = a
          · rw [if_pos hb, hb, hlow a le_rfl, hq]
          · simp [Ram.read, hb]
        · rw [if_neg hq]
          by_cases hb : b = a <;> simp [Ram.read, hb]
      · rw [if_neg hac']
        by_cases hb : b = c
        · have : b ≠ a := by omega
          simp [Ram.read, hb, Ne.symm hac']
        · simp only [Ram.read, hb, if_false]
          exact Ram.read_write a b q hc.2.2

theorem Ram.read_write_self {m : Ram} (h : m.wf = true) (a : Nat) (q : Half) : (m.write a q).read a = q := by
  rw [Ram.read_write a a q h, if_pos rfl]

theorem Ram.read_write_ne {m : Ram} (h : m.wf = true) {a b : Nat} (hab : b ≠ a) (q : Half) :
    (m.write a q).read b = m.read b := by
  rw [Ram.read_write a b q h, if_neg hab]

/-- Two RAMs in canonical form that read alike everywhere are the same list. -/
theorem Ram.eq_of_read_eq {lo : Nat} :
    ∀ {m n : Ram}, Ram.wfFrom lo m = true → Ram.wfFrom lo n = true → (∀ a, m.read a = n.read a) → m = n
  | [], [], _, _, _ => rfl
  | [], (b, r) :: n, _, hn, h => by
    have := h b
    simp only [Ram.read, if_true] at this
    exact absurd this.symm (Ram.wfFrom_cons.1 hn).2.1
  | (b, r) :: m, [], hm, _, h => by
    have := h b
    simp only [Ram.read, if_true] at this
    exact absurd this (Ram.wfFrom_cons.1 hm).2.1
  | (a, q) :: m, (b, r) :: n, hm, hn, h => by
    have cm := Ram.wfFrom_cons.1 hm
    have cn := Ram.wfFrom_cons.1 hn
    have hab : a = b := by
      rcases Nat.lt_trichotomy a b with hlt | heq | hgt
      · have h1 := h a
        simp only [Ram.read, if_true, show a ≠ b by omega, if_false] at h1
        rw [Ram.read_below (by omega) cn.2.2] at h1
        exact absurd h1 cm.2.1
      · exact heq
      · have h1 := h b
        simp only [Ram.read, if_true, show b ≠ a by omega, if_false] at h1
        rw [Ram.read_below (by omega) cm.2.2] at h1
        exact absurd h1.symm cn.2.1
    subst hab
    have hq : q = r := by simpa [Ram.read] using h a
    subst hq
    rw [Ram.eq_of_read_eq cm.2.2 cn.2.2]
    intro x
    by_cases hx : x = a
    · rw [hx, Ram.read_below (by omega) cm.2.2, Ram.read_below (by omega) cn.2.2]
    · simpa [Ram.read, hx] using h x

/-- Which cells a write can leave. -/
theorem Ram.mem_write {a : Nat} {q : Half} {c : Cell} : ∀ {m : Ram}, c ∈ m.write a q → c = (a, q) ∨ c ∈ m
  | [], h => by
    unfold Ram.write at h
    split at h <;> simp_all
  | (b, r) :: m, h => by
    unfold Ram.write at h
    split at h
    · split at h
      · exact .inr h
      · simpa using h
    · split at h
      · split at h
        · exact .inr (List.mem_cons_of_mem _ h)
        · rcases List.mem_cons.1 h with h | h
          · exact .inl h
          · exact .inr (List.mem_cons_of_mem _ h)
      · rcases List.mem_cons.1 h with h | h
        · exact .inr (h ▸ List.mem_cons_self)
        · exact (Ram.mem_write h).imp id (List.mem_cons_of_mem _)

/-- A RAM made from samples has the canonical form. -/
theorem Ram.ofCells_wf (cells : List (Half × Half)) : (Ram.ofCells cells).wf = true := by
  unfold Ram.ofCells
  have h : ∀ m : Ram, m.wf = true → (cells.foldl (fun m c => m.write c.1.toNat c.2) m).wf = true := by
    induction cells with
    | nil => exact fun _ h => h
    | cons c cs ih => exact fun m hm => ih _ (Ram.wf_write hm _ _)
  exact h [] rfl

/-! ### The Work Area -/

@[simp] theorem WorkArea.write_size (w : WorkArea) (a : Nat) (q : Half) : (w.write a q).size = w.size := (rfl)
@[simp] theorem WorkArea.write_mask (w : WorkArea) (a : Nat) (q : Half) : (w.write a q).mask = w.mask := (rfl)
@[simp] theorem WorkArea.write_base (w : WorkArea) (a : Nat) (q : Half) : (w.write a q).base = w.base := (rfl)
@[simp] theorem WorkArea.write_ram (w : WorkArea) (a : Nat) (q : Half) : (w.write a q).ram = w.ram.write a q := (rfl)
@[simp] theorem WorkArea.wr_size (w : WorkArea) (o : Int) (v : FVal) : (w.wr o v).size = w.size := (rfl)
@[simp] theorem WorkArea.wr_mask (w : WorkArea) (o : Int) (v : FVal) : (w.wr o v).mask = w.mask := (rfl)
@[simp] theorem WorkArea.wr_base (w : WorkArea) (o : Int) (v : FVal) : (w.wr o v).base = w.base := (rfl)
@[simp] theorem WorkArea.wr_ea (w : WorkArea) (o p : Int) (v : FVal) : (w.wr o v).ea p = w.ea p := (rfl)
@[simp] theorem WorkArea.advance_size (w : WorkArea) (n : Nat) : (w.advance n).size = w.size := (rfl)
@[simp] theorem WorkArea.advance_mask (w : WorkArea) (n : Nat) : (w.advance n).mask = w.mask := (rfl)
@[simp] theorem WorkArea.advance_ram (w : WorkArea) (n : Nat) : (w.advance n).ram = w.ram := (rfl)
@[simp] theorem WorkArea.advance_base (w : WorkArea) (n : Nat) : (w.advance n).base = BitVec.ofNat 16 (w.ea n) := (rfl)
@[simp] theorem WorkArea.advance_read (w : WorkArea) (n a : Nat) : (w.advance n).read a = w.read a := (rfl)

/-- The effective address never leaves the mask: "masking guarantees this" (20_memory.md R28). -/
theorem WorkArea.ea_le_mask (w : WorkArea) (off : Int) : w.ea off ≤ w.mask.toNat := by
  unfold WorkArea.ea
  rw [BitVec.toNat_and]
  exact Nat.and_le_right

theorem WorkArea.ea_lt (w : WorkArea) (off : Int) : w.ea off < 65536 :=
  (w.ea_le_mask off).trans_lt w.mask.isLt

/-- What one Work Area write does to every sample (20_memory.md R34). -/
theorem WorkArea.read_wr {w : WorkArea} (h : w.ram.wf = true) (o : Int) (v : FVal) (a : Nat) :
    (w.wr o v).read a = if a = w.ea o then quant16 v else w.read a :=
  Ram.read_write _ _ _ h

theorem WorkArea.wf_wr {w : WorkArea} (h : w.ram.wf = true) (o : Int) (v : FVal) : (w.wr o v).ram.wf = true :=
  Ram.wf_write h _ _

/-- A resized Work Area reads 0 everywhere (41_work_area.md R75). -/
@[simp] theorem resized_read (bytes a : Nat) : (resized bytes).read a = 0#16 := rfl

@[simp] theorem resized_wf (bytes : Nat) : (resized bytes).ram.wf = true := rfl

/-- The RAM of the reset state has the canonical form. -/
theorem State.reset_ram_wf : State.reset.wa.ram.wf = true := rfl

end Sys2Proof.Machine
end

