-- ==== Sys2Proof/Laws/State.lean ====
section
/-! SUPPORT. One lemma for each field of State under each named update: what the update writes and what it leaves. -/

namespace Sys2Proof.Machine

@[simp] theorem State.withHost_host (s : State) (h : List HostDrive) : (s.withHost h).host = h := (rfl)
@[simp] theorem State.withHost_cmdReady (s : State) (h : List HostDrive) : (s.withHost h).cmdReady = s.cmdReady := (rfl)
@[simp] theorem State.withHost_rspValid (s : State) (h : List HostDrive) : (s.withHost h).rspValid = s.rspValid := (rfl)
@[simp] theorem State.withHost_rspErr (s : State) (h : List HostDrive) : (s.withHost h).rspErr = s.rspErr := (rfl)
@[simp] theorem State.withHost_res0 (s : State) (h : List HostDrive) : (s.withHost h).res0 = s.res0 := (rfl)
@[simp] theorem State.withHost_res1 (s : State) (h : List HostDrive) : (s.withHost h).res1 = s.res1 := (rfl)
@[simp] theorem State.withHost_status (s : State) (h : List HostDrive) : (s.withHost h).status = s.status := (rfl)
@[simp] theorem State.withHost_ctl (s : State) (h : List HostDrive) : (s.withHost h).ctl = s.ctl := (rfl)
@[simp] theorem State.withHost_base (s : State) (h : List HostDrive) : (s.withHost h).base = s.base := (rfl)
@[simp] theorem State.withHost_cur (s : State) (h : List HostDrive) : (s.withHost h).cur = s.cur := (rfl)
@[simp] theorem State.withHost_hb (s : State) (h : List HostDrive) : (s.withHost h).hb = s.hb := (rfl)
@[simp] theorem State.withHost_wa (s : State) (h : List HostDrive) : (s.withHost h).wa = s.wa := (rfl)
@[simp] theorem State.withHost_freeCount (s : State) (h : List HostDrive) : (s.withHost h).freeCount = s.freeCount := (rfl)

@[simp] theorem State.withLines_host (s : State) (a b c : Bool) : (s.withLines a b c).host = s.host := (rfl)
@[simp] theorem State.withLines_cmdReady (s : State) (a b c : Bool) : (s.withLines a b c).cmdReady = a := (rfl)
@[simp] theorem State.withLines_rspValid (s : State) (a b c : Bool) : (s.withLines a b c).rspValid = b := (rfl)
@[simp] theorem State.withLines_rspErr (s : State) (a b c : Bool) : (s.withLines a b c).rspErr = c := (rfl)
@[simp] theorem State.withLines_res0 (s : State) (a b c : Bool) : (s.withLines a b c).res0 = s.res0 := (rfl)
@[simp] theorem State.withLines_res1 (s : State) (a b c : Bool) : (s.withLines a b c).res1 = s.res1 := (rfl)
@[simp] theorem State.withLines_status (s : State) (a b c : Bool) : (s.withLines a b c).status = s.status := (rfl)
@[simp] theorem State.withLines_ctl (s : State) (a b c : Bool) : (s.withLines a b c).ctl = s.ctl := (rfl)
@[simp] theorem State.withLines_base (s : State) (a b c : Bool) : (s.withLines a b c).base = s.base := (rfl)
@[simp] theorem State.withLines_cur (s : State) (a b c : Bool) : (s.withLines a b c).cur = s.cur := (rfl)
@[simp] theorem State.withLines_hb (s : State) (a b c : Bool) : (s.withLines a b c).hb = s.hb := (rfl)
@[simp] theorem State.withLines_wa (s : State) (a b c : Bool) : (s.withLines a b c).wa = s.wa := (rfl)
@[simp] theorem State.withLines_freeCount (s : State) (a b c : Bool) : (s.withLines a b c).freeCount = s.freeCount := (rfl)

@[simp] theorem State.withStatus_host (s : State) (v : Word) : (s.withStatus v).host = s.host := (rfl)
@[simp] theorem State.withStatus_cmdReady (s : State) (v : Word) : (s.withStatus v).cmdReady = s.cmdReady := (rfl)
@[simp] theorem State.withStatus_rspValid (s : State) (v : Word) : (s.withStatus v).rspValid = s.rspValid := (rfl)
@[simp] theorem State.withStatus_rspErr (s : State) (v : Word) : (s.withStatus v).rspErr = s.rspErr := (rfl)
@[simp] theorem State.withStatus_res0 (s : State) (v : Word) : (s.withStatus v).res0 = s.res0 := (rfl)
@[simp] theorem State.withStatus_res1 (s : State) (v : Word) : (s.withStatus v).res1 = s.res1 := (rfl)
@[simp] theorem State.withStatus_status (s : State) (v : Word) : (s.withStatus v).status = v := (rfl)
@[simp] theorem State.withStatus_ctl (s : State) (v : Word) : (s.withStatus v).ctl = s.ctl := (rfl)
@[simp] theorem State.withStatus_base (s : State) (v : Word) : (s.withStatus v).base = s.base := (rfl)
@[simp] theorem State.withStatus_cur (s : State) (v : Word) : (s.withStatus v).cur = s.cur := (rfl)
@[simp] theorem State.withStatus_hb (s : State) (v : Word) : (s.withStatus v).hb = s.hb := (rfl)
@[simp] theorem State.withStatus_wa (s : State) (v : Word) : (s.withStatus v).wa = s.wa := (rfl)
@[simp] theorem State.withStatus_freeCount (s : State) (v : Word) : (s.withStatus v).freeCount = s.freeCount := (rfl)

@[simp] theorem State.withRes0_host (s : State) (v : Word) : (s.withRes0 v).host = s.host := (rfl)
@[simp] theorem State.withRes0_cmdReady (s : State) (v : Word) : (s.withRes0 v).cmdReady = s.cmdReady := (rfl)
@[simp] theorem State.withRes0_rspValid (s : State) (v : Word) : (s.withRes0 v).rspValid = s.rspValid := (rfl)
@[simp] theorem State.withRes0_rspErr (s : State) (v : Word) : (s.withRes0 v).rspErr = s.rspErr := (rfl)
@[simp] theorem State.withRes0_res0 (s : State) (v : Word) : (s.withRes0 v).res0 = v := (rfl)
@[simp] theorem State.withRes0_res1 (s : State) (v : Word) : (s.withRes0 v).res1 = s.res1 := (rfl)
@[simp] theorem State.withRes0_status (s : State) (v : Word) : (s.withRes0 v).status = s.status := (rfl)
@[simp] theorem State.withRes0_ctl (s : State) (v : Word) : (s.withRes0 v).ctl = s.ctl := (rfl)
@[simp] theorem State.withRes0_base (s : State) (v : Word) : (s.withRes0 v).base = s.base := (rfl)
@[simp] theorem State.withRes0_cur (s : State) (v : Word) : (s.withRes0 v).cur = s.cur := (rfl)
@[simp] theorem State.withRes0_hb (s : State) (v : Word) : (s.withRes0 v).hb = s.hb := (rfl)
@[simp] theorem State.withRes0_wa (s : State) (v : Word) : (s.withRes0 v).wa = s.wa := (rfl)
@[simp] theorem State.withRes0_freeCount (s : State) (v : Word) : (s.withRes0 v).freeCount = s.freeCount := (rfl)

@[simp] theorem State.withRes1_host (s : State) (v : Word) : (s.withRes1 v).host = s.host := (rfl)
@[simp] theorem State.withRes1_cmdReady (s : State) (v : Word) : (s.withRes1 v).cmdReady = s.cmdReady := (rfl)
@[simp] theorem State.withRes1_rspValid (s : State) (v : Word) : (s.withRes1 v).rspValid = s.rspValid := (rfl)
@[simp] theorem State.withRes1_rspErr (s : State) (v : Word) : (s.withRes1 v).rspErr = s.rspErr := (rfl)
@[simp] theorem State.withRes1_res0 (s : State) (v : Word) : (s.withRes1 v).res0 = s.res0 := (rfl)
@[simp] theorem State.withRes1_res1 (s : State) (v : Word) : (s.withRes1 v).res1 = v := (rfl)
@[simp] theorem State.withRes1_status (s : State) (v : Word) : (s.withRes1 v).status = s.status := (rfl)
@[simp] theorem State.withRes1_ctl (s : State) (v : Word) : (s.withRes1 v).ctl = s.ctl := (rfl)
@[simp] theorem State.withRes1_base (s : State) (v : Word) : (s.withRes1 v).base = s.base := (rfl)
@[simp] theorem State.withRes1_cur (s : State) (v : Word) : (s.withRes1 v).cur = s.cur := (rfl)
@[simp] theorem State.withRes1_hb (s : State) (v : Word) : (s.withRes1 v).hb = s.hb := (rfl)
@[simp] theorem State.withRes1_wa (s : State) (v : Word) : (s.withRes1 v).wa = s.wa := (rfl)
@[simp] theorem State.withRes1_freeCount (s : State) (v : Word) : (s.withRes1 v).freeCount = s.freeCount := (rfl)

@[simp] theorem State.withRes0Val_host (s : State) (v : FVal) : (s.withRes0Val v).host = s.host := (rfl)
@[simp] theorem State.withRes0Val_cmdReady (s : State) (v : FVal) : (s.withRes0Val v).cmdReady = s.cmdReady := (rfl)
@[simp] theorem State.withRes0Val_rspValid (s : State) (v : FVal) : (s.withRes0Val v).rspValid = s.rspValid := (rfl)
@[simp] theorem State.withRes0Val_rspErr (s : State) (v : FVal) : (s.withRes0Val v).rspErr = s.rspErr := (rfl)
@[simp] theorem State.withRes0Val_res0 (s : State) (v : FVal) : (s.withRes0Val v).res0 = encodeAt s.freeCount v := (rfl)
@[simp] theorem State.withRes0Val_res1 (s : State) (v : FVal) : (s.withRes0Val v).res1 = s.res1 := (rfl)
@[simp] theorem State.withRes0Val_status (s : State) (v : FVal) : (s.withRes0Val v).status = s.status := (rfl)
@[simp] theorem State.withRes0Val_ctl (s : State) (v : FVal) : (s.withRes0Val v).ctl = s.ctl := (rfl)
@[simp] theorem State.withRes0Val_base (s : State) (v : FVal) : (s.withRes0Val v).base = s.base := (rfl)
@[simp] theorem State.withRes0Val_cur (s : State) (v : FVal) : (s.withRes0Val v).cur = s.cur := (rfl)
@[simp] theorem State.withRes0Val_hb (s : State) (v : FVal) : (s.withRes0Val v).hb = s.hb := (rfl)
@[simp] theorem State.withRes0Val_wa (s : State) (v : FVal) : (s.withRes0Val v).wa = s.wa := (rfl)
@[simp] theorem State.withRes0Val_freeCount (s : State) (v : FVal) : (s.withRes0Val v).freeCount = s.freeCount + nanDraws v := (rfl)

@[simp] theorem State.withRes1Val_host (s : State) (v : FVal) : (s.withRes1Val v).host = s.host := (rfl)
@[simp] theorem State.withRes1Val_cmdReady (s : State) (v : FVal) : (s.withRes1Val v).cmdReady = s.cmdReady := (rfl)
@[simp] theorem State.withRes1Val_rspValid (s : State) (v : FVal) : (s.withRes1Val v).rspValid = s.rspValid := (rfl)
@[simp] theorem State.withRes1Val_rspErr (s : State) (v : FVal) : (s.withRes1Val v).rspErr = s.rspErr := (rfl)
@[simp] theorem State.withRes1Val_res0 (s : State) (v : FVal) : (s.withRes1Val v).res0 = s.res0 := (rfl)
@[simp] theorem State.withRes1Val_res1 (s : State) (v : FVal) : (s.withRes1Val v).res1 = encodeAt s.freeCount v := (rfl)
@[simp] theorem State.withRes1Val_status (s : State) (v : FVal) : (s.withRes1Val v).status = s.status := (rfl)
@[simp] theorem State.withRes1Val_ctl (s : State) (v : FVal) : (s.withRes1Val v).ctl = s.ctl := (rfl)
@[simp] theorem State.withRes1Val_base (s : State) (v : FVal) : (s.withRes1Val v).base = s.base := (rfl)
@[simp] theorem State.withRes1Val_cur (s : State) (v : FVal) : (s.withRes1Val v).cur = s.cur := (rfl)
@[simp] theorem State.withRes1Val_hb (s : State) (v : FVal) : (s.withRes1Val v).hb = s.hb := (rfl)
@[simp] theorem State.withRes1Val_wa (s : State) (v : FVal) : (s.withRes1Val v).wa = s.wa := (rfl)
@[simp] theorem State.withRes1Val_freeCount (s : State) (v : FVal) : (s.withRes1Val v).freeCount = s.freeCount + nanDraws v := (rfl)

@[simp] theorem State.withCtl_host (s : State) (c : Controls) : (s.withCtl c).host = s.host := (rfl)
@[simp] theorem State.withCtl_cmdReady (s : State) (c : Controls) : (s.withCtl c).cmdReady = s.cmdReady := (rfl)
@[simp] theorem State.withCtl_rspValid (s : State) (c : Controls) : (s.withCtl c).rspValid = s.rspValid := (rfl)
@[simp] theorem State.withCtl_rspErr (s : State) (c : Controls) : (s.withCtl c).rspErr = s.rspErr := (rfl)
@[simp] theorem State.withCtl_res0 (s : State) (c : Controls) : (s.withCtl c).res0 = s.res0 := (rfl)
@[simp] theorem State.withCtl_res1 (s : State) (c : Controls) : (s.withCtl c).res1 = s.res1 := (rfl)
@[simp] theorem State.withCtl_status (s : State) (c : Controls) : (s.withCtl c).status = s.status := (rfl)
@[simp] theorem State.withCtl_ctl (s : State) (c : Controls) : (s.withCtl c).ctl = c := (rfl)
@[simp] theorem State.withCtl_base (s : State) (c : Controls) : (s.withCtl c).base = s.base := (rfl)
@[simp] theorem State.withCtl_cur (s : State) (c : Controls) : (s.withCtl c).cur = s.cur := (rfl)
@[simp] theorem State.withCtl_hb (s : State) (c : Controls) : (s.withCtl c).hb = s.hb := (rfl)
@[simp] theorem State.withCtl_wa (s : State) (c : Controls) : (s.withCtl c).wa = s.wa := (rfl)
@[simp] theorem State.withCtl_freeCount (s : State) (c : Controls) : (s.withCtl c).freeCount = s.freeCount := (rfl)

@[simp] theorem State.withBase_host (s : State) (b : Scaled) : (s.withBase b).host = s.host := (rfl)
@[simp] theorem State.withBase_cmdReady (s : State) (b : Scaled) : (s.withBase b).cmdReady = s.cmdReady := (rfl)
@[simp] theorem State.withBase_rspValid (s : State) (b : Scaled) : (s.withBase b).rspValid = s.rspValid := (rfl)
@[simp] theorem State.withBase_rspErr (s : State) (b : Scaled) : (s.withBase b).rspErr = s.rspErr := (rfl)
@[simp] theorem State.withBase_res0 (s : State) (b : Scaled) : (s.withBase b).res0 = s.res0 := (rfl)
@[simp] theorem State.withBase_res1 (s : State) (b : Scaled) : (s.withBase b).res1 = s.res1 := (rfl)
@[simp] theorem State.withBase_status (s : State) (b : Scaled) : (s.withBase b).status = s.status := (rfl)
@[simp] theorem State.withBase_ctl (s : State) (b : Scaled) : (s.withBase b).ctl = s.ctl := (rfl)
@[simp] theorem State.withBase_base (s : State) (b : Scaled) : (s.withBase b).base = b := (rfl)
@[simp] theorem State.withBase_cur (s : State) (b : Scaled) : (s.withBase b).cur = s.cur := (rfl)
@[simp] theorem State.withBase_hb (s : State) (b : Scaled) : (s.withBase b).hb = s.hb := (rfl)
@[simp] theorem State.withBase_wa (s : State) (b : Scaled) : (s.withBase b).wa = s.wa := (rfl)
@[simp] theorem State.withBase_freeCount (s : State) (b : Scaled) : (s.withBase b).freeCount = s.freeCount := (rfl)

@[simp] theorem State.withCur_host (s : State) (c : Scaled) : (s.withCur c).host = s.host := (rfl)
@[simp] theorem State.withCur_cmdReady (s : State) (c : Scaled) : (s.withCur c).cmdReady = s.cmdReady := (rfl)
@[simp] theorem State.withCur_rspValid (s : State) (c : Scaled) : (s.withCur c).rspValid = s.rspValid := (rfl)
@[simp] theorem State.withCur_rspErr (s : State) (c : Scaled) : (s.withCur c).rspErr = s.rspErr := (rfl)
@[simp] theorem State.withCur_res0 (s : State) (c : Scaled) : (s.withCur c).res0 = s.res0 := (rfl)
@[simp] theorem State.withCur_res1 (s : State) (c : Scaled) : (s.withCur c).res1 = s.res1 := (rfl)
@[simp] theorem State.withCur_status (s : State) (c : Scaled) : (s.withCur c).status = s.status := (rfl)
@[simp] theorem State.withCur_ctl (s : State) (c : Scaled) : (s.withCur c).ctl = s.ctl := (rfl)
@[simp] theorem State.withCur_base (s : State) (c : Scaled) : (s.withCur c).base = s.base := (rfl)
@[simp] theorem State.withCur_cur (s : State) (c : Scaled) : (s.withCur c).cur = c := (rfl)
@[simp] theorem State.withCur_hb (s : State) (c : Scaled) : (s.withCur c).hb = s.hb := (rfl)
@[simp] theorem State.withCur_wa (s : State) (c : Scaled) : (s.withCur c).wa = s.wa := (rfl)
@[simp] theorem State.withCur_freeCount (s : State) (c : Scaled) : (s.withCur c).freeCount = s.freeCount := (rfl)

@[simp] theorem State.withRing_host (s : State) (h : RingSel) (r : Ring) : (s.withRing h r).host = s.host := (rfl)
@[simp] theorem State.withRing_cmdReady (s : State) (h : RingSel) (r : Ring) : (s.withRing h r).cmdReady = s.cmdReady := (rfl)
@[simp] theorem State.withRing_rspValid (s : State) (h : RingSel) (r : Ring) : (s.withRing h r).rspValid = s.rspValid := (rfl)
@[simp] theorem State.withRing_rspErr (s : State) (h : RingSel) (r : Ring) : (s.withRing h r).rspErr = s.rspErr := (rfl)
@[simp] theorem State.withRing_res0 (s : State) (h : RingSel) (r : Ring) : (s.withRing h r).res0 = s.res0 := (rfl)
@[simp] theorem State.withRing_res1 (s : State) (h : RingSel) (r : Ring) : (s.withRing h r).res1 = s.res1 := (rfl)
@[simp] theorem State.withRing_status (s : State) (h : RingSel) (r : Ring) : (s.withRing h r).status = s.status := (rfl)
@[simp] theorem State.withRing_ctl (s : State) (h : RingSel) (r : Ring) : (s.withRing h r).ctl = s.ctl := (rfl)
@[simp] theorem State.withRing_base (s : State) (h : RingSel) (r : Ring) : (s.withRing h r).base = s.base := (rfl)
@[simp] theorem State.withRing_cur (s : State) (h : RingSel) (r : Ring) : (s.withRing h r).cur = s.cur := (rfl)
@[simp] theorem State.withRing_hb (s : State) (h : RingSel) (r : Ring) : (s.withRing h r).hb = s.hb.put h r := (rfl)
@[simp] theorem State.withRing_wa (s : State) (h : RingSel) (r : Ring) : (s.withRing h r).wa = s.wa := (rfl)
@[simp] theorem State.withRing_freeCount (s : State) (h : RingSel) (r : Ring) : (s.withRing h r).freeCount = s.freeCount := (rfl)

@[simp] theorem State.withRings_host (s : State) (b : Rings) : (s.withRings b).host = s.host := (rfl)
@[simp] theorem State.withRings_cmdReady (s : State) (b : Rings) : (s.withRings b).cmdReady = s.cmdReady := (rfl)
@[simp] theorem State.withRings_rspValid (s : State) (b : Rings) : (s.withRings b).rspValid = s.rspValid := (rfl)
@[simp] theorem State.withRings_rspErr (s : State) (b : Rings) : (s.withRings b).rspErr = s.rspErr := (rfl)
@[simp] theorem State.withRings_res0 (s : State) (b : Rings) : (s.withRings b).res0 = s.res0 := (rfl)
@[simp] theorem State.withRings_res1 (s : State) (b : Rings) : (s.withRings b).res1 = s.res1 := (rfl)
@[simp] theorem State.withRings_status (s : State) (b : Rings) : (s.withRings b).status = s.status := (rfl)
@[simp] theorem State.withRings_ctl (s : State) (b : Rings) : (s.withRings b).ctl = s.ctl := (rfl)
@[simp] theorem State.withRings_base (s : State) (b : Rings) : (s.withRings b).base = s.base := (rfl)
@[simp] theorem State.withRings_cur (s : State) (b : Rings) : (s.withRings b).cur = s.cur := (rfl)
@[simp] theorem State.withRings_hb (s : State) (b : Rings) : (s.withRings b).hb = b := (rfl)
@[simp] theorem State.withRings_wa (s : State) (b : Rings) : (s.withRings b).wa = s.wa := (rfl)
@[simp] theorem State.withRings_freeCount (s : State) (b : Rings) : (s.withRings b).freeCount = s.freeCount := (rfl)

@[simp] theorem State.withWa_host (s : State) (w : WorkArea) : (s.withWa w).host = s.host := (rfl)
@[simp] theorem State.withWa_cmdReady (s : State) (w : WorkArea) : (s.withWa w).cmdReady = s.cmdReady := (rfl)
@[simp] theorem State.withWa_rspValid (s : State) (w : WorkArea) : (s.withWa w).rspValid = s.rspValid := (rfl)
@[simp] theorem State.withWa_rspErr (s : State) (w : WorkArea) : (s.withWa w).rspErr = s.rspErr := (rfl)
@[simp] theorem State.withWa_res0 (s : State) (w : WorkArea) : (s.withWa w).res0 = s.res0 := (rfl)
@[simp] theorem State.withWa_res1 (s : State) (w : WorkArea) : (s.withWa w).res1 = s.res1 := (rfl)
@[simp] theorem State.withWa_status (s : State) (w : WorkArea) : (s.withWa w).status = s.status := (rfl)
@[simp] theorem State.withWa_ctl (s : State) (w : WorkArea) : (s.withWa w).ctl = s.ctl := (rfl)
@[simp] theorem State.withWa_base (s : State) (w : WorkArea) : (s.withWa w).base = s.base := (rfl)
@[simp] theorem State.withWa_cur (s : State) (w : WorkArea) : (s.withWa w).cur = s.cur := (rfl)
@[simp] theorem State.withWa_hb (s : State) (w : WorkArea) : (s.withWa w).hb = s.hb := (rfl)
@[simp] theorem State.withWa_wa (s : State) (w : WorkArea) : (s.withWa w).wa = w := (rfl)
@[simp] theorem State.withWa_freeCount (s : State) (w : WorkArea) : (s.withWa w).freeCount = s.freeCount := (rfl)

@[simp] theorem State.accept_host (s : State) : (s.accept).host = s.host := (rfl)
@[simp] theorem State.accept_cmdReady (s : State) : (s.accept).cmdReady = s.cmdReady := (rfl)
@[simp] theorem State.accept_rspValid (s : State) : (s.accept).rspValid = true := (rfl)
@[simp] theorem State.accept_rspErr (s : State) : (s.accept).rspErr = false := (rfl)
@[simp] theorem State.accept_res0 (s : State) : (s.accept).res0 = s.res0 := (rfl)
@[simp] theorem State.accept_res1 (s : State) : (s.accept).res1 = s.res1 := (rfl)
@[simp] theorem State.accept_status (s : State) : (s.accept).status = s.status := (rfl)
@[simp] theorem State.accept_ctl (s : State) : (s.accept).ctl = s.ctl := (rfl)
@[simp] theorem State.accept_base (s : State) : (s.accept).base = s.base := (rfl)
@[simp] theorem State.accept_cur (s : State) : (s.accept).cur = s.cur := (rfl)
@[simp] theorem State.accept_hb (s : State) : (s.accept).hb = s.hb := (rfl)
@[simp] theorem State.accept_wa (s : State) : (s.accept).wa = s.wa := (rfl)
@[simp] theorem State.accept_freeCount (s : State) : (s.accept).freeCount = s.freeCount := (rfl)

@[simp] theorem State.idle_host (s : State) : (s.idle).host = s.host := (rfl)
@[simp] theorem State.idle_cmdReady (s : State) : (s.idle).cmdReady = s.cmdReady := (rfl)
@[simp] theorem State.idle_rspValid (s : State) : (s.idle).rspValid = false := (rfl)
@[simp] theorem State.idle_rspErr (s : State) : (s.idle).rspErr = false := (rfl)
@[simp] theorem State.idle_res0 (s : State) : (s.idle).res0 = s.res0 := (rfl)
@[simp] theorem State.idle_res1 (s : State) : (s.idle).res1 = s.res1 := (rfl)
@[simp] theorem State.idle_status (s : State) : (s.idle).status = s.status := (rfl)
@[simp] theorem State.idle_ctl (s : State) : (s.idle).ctl = s.ctl := (rfl)
@[simp] theorem State.idle_base (s : State) : (s.idle).base = s.base := (rfl)
@[simp] theorem State.idle_cur (s : State) : (s.idle).cur = s.cur := (rfl)
@[simp] theorem State.idle_hb (s : State) : (s.idle).hb = s.hb := (rfl)
@[simp] theorem State.idle_wa (s : State) : (s.idle).wa = s.wa := (rfl)
@[simp] theorem State.idle_freeCount (s : State) : (s.idle).freeCount = s.freeCount := (rfl)

@[simp] theorem State.holdReset_host (s : State) : (s.holdReset).host = s.host := (rfl)
@[simp] theorem State.holdReset_cmdReady (s : State) : (s.holdReset).cmdReady = false := (rfl)
@[simp] theorem State.holdReset_rspValid (s : State) : (s.holdReset).rspValid = false := (rfl)
@[simp] theorem State.holdReset_rspErr (s : State) : (s.holdReset).rspErr = false := (rfl)
@[simp] theorem State.holdReset_res0 (s : State) : (s.holdReset).res0 = s.res0 := (rfl)
@[simp] theorem State.holdReset_res1 (s : State) : (s.holdReset).res1 = s.res1 := (rfl)
@[simp] theorem State.holdReset_status (s : State) : (s.holdReset).status = s.status := (rfl)
@[simp] theorem State.holdReset_ctl (s : State) : (s.holdReset).ctl = s.ctl := (rfl)
@[simp] theorem State.holdReset_base (s : State) : (s.holdReset).base = s.base := (rfl)
@[simp] theorem State.holdReset_cur (s : State) : (s.holdReset).cur = s.cur := (rfl)
@[simp] theorem State.holdReset_hb (s : State) : (s.holdReset).hb = s.hb := (rfl)
@[simp] theorem State.holdReset_wa (s : State) : (s.holdReset).wa = s.wa := (rfl)
@[simp] theorem State.holdReset_freeCount (s : State) : (s.holdReset).freeCount = s.freeCount := (rfl)

@[simp] theorem State.rederive_host (s : State) : (s.rederive).host = s.host := (rfl)
@[simp] theorem State.rederive_cmdReady (s : State) : (s.rederive).cmdReady = s.cmdReady := (rfl)
@[simp] theorem State.rederive_rspValid (s : State) : (s.rederive).rspValid = s.rspValid := (rfl)
@[simp] theorem State.rederive_rspErr (s : State) : (s.rederive).rspErr = s.rspErr := (rfl)
@[simp] theorem State.rederive_res0 (s : State) : (s.rederive).res0 = s.res0 := (rfl)
@[simp] theorem State.rederive_res1 (s : State) : (s.rederive).res1 = s.res1 := (rfl)
@[simp] theorem State.rederive_status (s : State) : (s.rederive).status = s.status := (rfl)
@[simp] theorem State.rederive_ctl (s : State) : (s.rederive).ctl = s.ctl := (rfl)
@[simp] theorem State.rederive_base (s : State) : (s.rederive).base = s.base := (rfl)
@[simp] theorem State.rederive_cur (s : State) : (s.rederive).cur = derive s.base s.ctl.decay s.ctl.ingain s.ctl.revlvl := (rfl)
@[simp] theorem State.rederive_hb (s : State) : (s.rederive).hb = s.hb := (rfl)
@[simp] theorem State.rederive_wa (s : State) : (s.rederive).wa = s.wa := (rfl)
@[simp] theorem State.rederive_freeCount (s : State) : (s.rederive).freeCount = s.freeCount := (rfl)

@[simp] theorem State.raise_host (e : CmdError) (s : State) : (s.raise e).host = s.host := (rfl)
@[simp] theorem State.raise_cmdReady (e : CmdError) (s : State) : (s.raise e).cmdReady = s.cmdReady := (rfl)
@[simp] theorem State.raise_rspValid (e : CmdError) (s : State) : (s.raise e).rspValid = s.rspValid := (rfl)
@[simp] theorem State.raise_rspErr (e : CmdError) (s : State) : (s.raise e).rspErr = true := (rfl)
@[simp] theorem State.raise_res0 (e : CmdError) (s : State) : (s.raise e).res0 = s.res0 := (rfl)
@[simp] theorem State.raise_res1 (e : CmdError) (s : State) : (s.raise e).res1 = s.res1 := (rfl)
@[simp] theorem State.raise_status (e : CmdError) (s : State) : (s.raise e).status = statusAfter e s.status := (rfl)
@[simp] theorem State.raise_ctl (e : CmdError) (s : State) : (s.raise e).ctl = s.ctl := (rfl)
@[simp] theorem State.raise_base (e : CmdError) (s : State) : (s.raise e).base = s.base := (rfl)
@[simp] theorem State.raise_cur (e : CmdError) (s : State) : (s.raise e).cur = s.cur := (rfl)
@[simp] theorem State.raise_hb (e : CmdError) (s : State) : (s.raise e).hb = s.hb := (rfl)
@[simp] theorem State.raise_wa (e : CmdError) (s : State) : (s.raise e).wa = s.wa := (rfl)
@[simp] theorem State.raise_freeCount (e : CmdError) (s : State) : (s.raise e).freeCount = s.freeCount := (rfl)

@[simp] theorem State.applyPreset_host (p : Params) (i : Fin 6) (s : State) : (s.applyPreset p i).host = s.host := by simp [State.applyPreset]
@[simp] theorem State.applyPreset_cmdReady (p : Params) (i : Fin 6) (s : State) : (s.applyPreset p i).cmdReady = s.cmdReady := by simp [State.applyPreset]
@[simp] theorem State.applyPreset_rspValid (p : Params) (i : Fin 6) (s : State) : (s.applyPreset p i).rspValid = s.rspValid := by simp [State.applyPreset]
@[simp] theorem State.applyPreset_rspErr (p : Params) (i : Fin 6) (s : State) : (s.applyPreset p i).rspErr = s.rspErr := by simp [State.applyPreset]
@[simp] theorem State.applyPreset_res0 (p : Params) (i : Fin 6) (s : State) : (s.applyPreset p i).res0 = s.res0 := by simp [State.applyPreset]
@[simp] theorem State.applyPreset_res1 (p : Params) (i : Fin 6) (s : State) : (s.applyPreset p i).res1 = s.res1 := by simp [State.applyPreset]
@[simp] theorem State.applyPreset_status (p : Params) (i : Fin 6) (s : State) : (s.applyPreset p i).status = s.status := by simp [State.applyPreset]
@[simp] theorem State.applyPreset_ctl (p : Params) (i : Fin 6) (s : State) : (s.applyPreset p i).ctl = { s.ctl with presetIdx := i } := by simp [State.applyPreset]
@[simp] theorem State.applyPreset_base (p : Params) (i : Fin 6) (s : State) : (s.applyPreset p i).base = scale (p.preset i) := by simp [State.applyPreset]
@[simp] theorem State.applyPreset_cur (p : Params) (i : Fin 6) (s : State) : (s.applyPreset p i).cur = derive (scale (p.preset i)) s.ctl.decay s.ctl.ingain s.ctl.revlvl := by simp [State.applyPreset]
@[simp] theorem State.applyPreset_hb (p : Params) (i : Fin 6) (s : State) : (s.applyPreset p i).hb = s.hb := by simp [State.applyPreset]
@[simp] theorem State.applyPreset_wa (p : Params) (i : Fin 6) (s : State) : (s.applyPreset p i).wa = resized (p.preset i).sizeBytes.toNat := by simp [State.applyPreset]
@[simp] theorem State.applyPreset_freeCount (p : Params) (i : Fin 6) (s : State) : (s.applyPreset p i).freeCount = s.freeCount := by simp [State.applyPreset]

@[simp] theorem State.resetSequence_host (p : Params) (s : State) : (s.resetSequence p).host = s.host := by simp [State.resetSequence]
@[simp] theorem State.resetSequence_cmdReady (p : Params) (s : State) : (s.resetSequence p).cmdReady = s.cmdReady := by simp [State.resetSequence]
@[simp] theorem State.resetSequence_rspValid (p : Params) (s : State) : (s.resetSequence p).rspValid = s.rspValid := by simp [State.resetSequence]
@[simp] theorem State.resetSequence_rspErr (p : Params) (s : State) : (s.resetSequence p).rspErr = s.rspErr := by simp [State.resetSequence]
@[simp] theorem State.resetSequence_res0 (p : Params) (s : State) : (s.resetSequence p).res0 = (State.resetOf p).res0 := by simp [State.resetSequence, State.resetOf]
@[simp] theorem State.resetSequence_res1 (p : Params) (s : State) : (s.resetSequence p).res1 = (State.resetOf p).res1 := by simp [State.resetSequence, State.resetOf]
@[simp] theorem State.resetSequence_status (p : Params) (s : State) : (s.resetSequence p).status = (State.resetOf p).status := by simp [State.resetSequence, State.resetOf]
@[simp] theorem State.resetSequence_ctl (p : Params) (s : State) : (s.resetSequence p).ctl = (State.resetOf p).ctl := by simp [State.resetSequence, State.resetOf, Controls.reset]
@[simp] theorem State.resetSequence_base (p : Params) (s : State) : (s.resetSequence p).base = (State.resetOf p).base := by simp [State.resetSequence, State.resetOf]
@[simp] theorem State.resetSequence_cur (p : Params) (s : State) : (s.resetSequence p).cur = (State.resetOf p).cur := by simp [State.resetSequence, State.resetOf, Controls.reset]
@[simp] theorem State.resetSequence_hb (p : Params) (s : State) : (s.resetSequence p).hb = (State.resetOf p).hb := by simp [State.resetSequence, State.resetOf]
@[simp] theorem State.resetSequence_wa (p : Params) (s : State) : (s.resetSequence p).wa = (State.resetOf p).wa := by simp [State.resetSequence, State.resetOf]
@[simp] theorem State.resetSequence_freeCount (p : Params) (s : State) : (s.resetSequence p).freeCount = s.freeCount := by simp [State.resetSequence]

@[simp] theorem State.releaseReset_host (p : Params) (s : State) : (s.releaseReset p).host = s.host := by simp [State.releaseReset]
@[simp] theorem State.releaseReset_cmdReady (p : Params) (s : State) : (s.releaseReset p).cmdReady = (State.resetOf p).cmdReady := (rfl)
@[simp] theorem State.releaseReset_rspValid (p : Params) (s : State) : (s.releaseReset p).rspValid = (State.resetOf p).rspValid := (rfl)
@[simp] theorem State.releaseReset_rspErr (p : Params) (s : State) : (s.releaseReset p).rspErr = (State.resetOf p).rspErr := (rfl)
@[simp] theorem State.releaseReset_res0 (p : Params) (s : State) : (s.releaseReset p).res0 = (State.resetOf p).res0 := by simp [State.releaseReset]
@[simp] theorem State.releaseReset_res1 (p : Params) (s : State) : (s.releaseReset p).res1 = (State.resetOf p).res1 := by simp [State.releaseReset]
@[simp] theorem State.releaseReset_status (p : Params) (s : State) : (s.releaseReset p).status = (State.resetOf p).status := by simp [State.releaseReset]
@[simp] theorem State.releaseReset_ctl (p : Params) (s : State) : (s.releaseReset p).ctl = (State.resetOf p).ctl := by simp [State.releaseReset]
@[simp] theorem State.releaseReset_base (p : Params) (s : State) : (s.releaseReset p).base = (State.resetOf p).base := by simp [State.releaseReset]
@[simp] theorem State.releaseReset_cur (p : Params) (s : State) : (s.releaseReset p).cur = (State.resetOf p).cur := by simp [State.releaseReset]
@[simp] theorem State.releaseReset_hb (p : Params) (s : State) : (s.releaseReset p).hb = (State.resetOf p).hb := by simp [State.releaseReset]
@[simp] theorem State.releaseReset_wa (p : Params) (s : State) : (s.releaseReset p).wa = (State.resetOf p).wa := by simp [State.releaseReset]
@[simp] theorem State.releaseReset_freeCount (p : Params) (s : State) : (s.releaseReset p).freeCount = s.freeCount := by simp [State.releaseReset]

@[simp] theorem State.abandon_host (t : Touched) (s : State) : (s.abandon t).host = s.host := (rfl)
@[simp] theorem State.abandon_cmdReady (t : Touched) (s : State) : (s.abandon t).cmdReady = false := (rfl)
@[simp] theorem State.abandon_rspValid (t : Touched) (s : State) : (s.abandon t).rspValid = false := (rfl)
@[simp] theorem State.abandon_rspErr (t : Touched) (s : State) : (s.abandon t).rspErr = false := (rfl)
@[simp] theorem State.abandon_res0 (t : Touched) (s : State) :
    (s.abandon t).res0 = (if t.res0 then (Config.leftover s.freeCount).res0 else s.res0) := (rfl)
@[simp] theorem State.abandon_res1 (t : Touched) (s : State) :
    (s.abandon t).res1 = (if t.res1 then (Config.leftover s.freeCount).res1 else s.res1) := (rfl)
@[simp] theorem State.abandon_status (t : Touched) (s : State) :
    (s.abandon t).status = (if t.status then (Config.leftover s.freeCount).status.zeroExtend 32 else s.status) := (rfl)
@[simp] theorem State.abandon_ctl (t : Touched) (s : State) :
    (s.abandon t).ctl = s.ctl.disturbed t (Config.leftover s.freeCount) := (rfl)
@[simp] theorem State.abandon_base (t : Touched) (s : State) :
    (s.abandon t).base = (if t.base then (Config.leftover s.freeCount).base else s.base) := (rfl)
@[simp] theorem State.abandon_cur (t : Touched) (s : State) :
    (s.abandon t).cur = (if t.cur then (Config.leftover s.freeCount).cur else s.cur) := (rfl)
@[simp] theorem State.abandon_hb (t : Touched) (s : State) :
    (s.abandon t).hb = s.hb.disturbed t (Config.leftover s.freeCount) := (rfl)
@[simp] theorem State.abandon_wa (t : Touched) (s : State) :
    (s.abandon t).wa = s.wa.disturbed t (Config.leftover s.freeCount) := (rfl)
@[simp] theorem State.abandon_freeCount (t : Touched) (s : State) : (s.abandon t).freeCount = s.freeCount + 1 := (rfl)

/-- The reset sequence leaves the reset state but for the host's side and the model's own counter. -/
theorem State.resetSequence_eq (p : Params) (s : State) :
    s.resetSequence p = { State.resetOf p with
      host := s.host, cmdReady := s.cmdReady, rspValid := s.rspValid, rspErr := s.rspErr, freeCount := s.freeCount } := by
  ext1 <;> simp

@[simp] theorem Rings.get_put_self (b : Rings) (h : RingSel) (r : Ring) : (b.put h r).get h = r := by
  cases h <;> rfl

@[simp] theorem Rings.get_put_ne (b : Rings) (r : Ring) {h k : RingSel} (hk : k ≠ h) :
    (b.put h r).get k = b.get k := by
  cases h <;> cases k <;> first | rfl | exact absurd rfl hk

@[simp] theorem WorkArea.disturbed_ram (t : Touched) (l : Leftover) (w : WorkArea) :
    (w.disturbed t l).ram = if t.ram then Ram.ofCells l.cells else w.ram := (rfl)
@[simp] theorem WorkArea.disturbed_size (t : Touched) (l : Leftover) (w : WorkArea) :
    (w.disturbed t l).size = if t.waSize then 2 ^ l.sizeLog.val else w.size := (rfl)
@[simp] theorem WorkArea.disturbed_mask (t : Touched) (l : Leftover) (w : WorkArea) :
    (w.disturbed t l).mask = if t.waSize then l.mask else w.mask := (rfl)
@[simp] theorem WorkArea.disturbed_base (t : Touched) (l : Leftover) (w : WorkArea) :
    (w.disturbed t l).base = if t.waBase then l.waBase else w.base := (rfl)
@[simp] theorem Controls.disturbed_presetIdx (t : Touched) (l : Leftover) (c : Controls) :
    (c.disturbed t l).presetIdx = if t.presetIdx then l.ctl.presetIdx else c.presetIdx := (rfl)
@[simp] theorem Controls.disturbed_decay (t : Touched) (l : Leftover) (c : Controls) :
    (c.disturbed t l).decay = if t.decay then l.ctl.decay else c.decay := (rfl)
@[simp] theorem Controls.disturbed_mix (t : Touched) (l : Leftover) (c : Controls) :
    (c.disturbed t l).mix = if t.mix then l.ctl.mix else c.mix := (rfl)
@[simp] theorem Controls.disturbed_ingain (t : Touched) (l : Leftover) (c : Controls) :
    (c.disturbed t l).ingain = if t.ingain then l.ctl.ingain else c.ingain := (rfl)
@[simp] theorem Controls.disturbed_revlvl (t : Touched) (l : Leftover) (c : Controls) :
    (c.disturbed t l).revlvl = if t.revlvl then l.ctl.revlvl else c.revlvl := (rfl)

/-- A ring after an abandoned command: free where the command writes it, else as before. -/
theorem Rings.get_disturbed (t : Touched) (l : Leftover) (b : Rings) (h : RingSel) :
    (b.disturbed t l).get h = if h ∈ t.rings then l.rings.get h else b.get h := by
  unfold Rings.disturbed
  generalize t.rings = rs
  induction rs generalizing b with
  | nil => rfl
  | cons k ks ih =>
    rw [List.foldl_cons, ih]
    by_cases hk : h = k
    · subst hk
      simp
    · by_cases hm : h ∈ ks <;> simp [hk, hm]

end Sys2Proof.Machine
end

