-- ==== Sys2Proof/Laws/Ops.lean ====
section
/-! SUPPORT. For each shared operation of Machine/Ops.lean, what it does, said once: the rings and tap sums, raising an
error, the preset steps, the command interface, the items of `GET`, and each meaning on accepted and refused operands.
The laws of memory stand in Laws/Memory.lean, those of the record updates in Laws/State.lean. -/

namespace Sys2Proof.Machine

/-! ### The configuration -/

/-- The coefficients are symmetric (40_halfband.md R59). -/
theorem Config.hbCoeff_symmetric {k : Nat} (h : k ≤ 38) : Config.hbCoeff (38 - k) = Config.hbCoeff k := by
  unfold Config.hbCoeff
  have : (if 38 - k ≤ 19 then 38 - k else 38 - (38 - k)) = if k ≤ 19 then k else 38 - k := by
    split <;> split <;> omega
  rw [this]

/-- Every coefficient is a finite number (log 3). -/
theorem Config.hbCoeff_isFinite (k : Nat) : isFinite (Config.hbCoeff k) = true := by
  unfold Config.hbCoeff
  dsimp only
  generalize Config.hbHalf (Fin.ofNat 20 (if k ≤ 19 then k else 38 - k)) = c
  split
  · rfl
  · simpa [isFinite, expField] using ‹_›

/-! ### The rings -/

@[simp] theorem Ring.push_pos (r : Ring) (v : F32) : (r.push v).pos = r.pos + 1#6 := rfl

@[simp] theorem Ring.push_buf (r : Ring) (v : F32) : (r.push v).buf = r.buf.set r.pos.toNat v r.pos.isLt := rfl

/-- A slot after a push. -/
theorem Ring.slot_push (r : Ring) (v : F32) (i : BitVec 6) : (r.push v).slot i = if i = r.pos then v else r.slot i := by
  simp only [Ring.slot, Ring.push_buf, Vector.getElem_set]
  by_cases h : i = r.pos
  · simp [h]
  · rw [if_neg h, if_neg]
    exact fun e => h (BitVec.eq_of_toNat_eq e.symm)

/-- A push shifts the window by one and puts the new sample at its end (40_halfband.md R61, R62). -/
theorem Ring.win_push (r : Ring) (v : F32) {k : Nat} (h : k < 39) :
    (r.push v).win k = if k = 38 then v else r.win (k + 1) := by
  unfold Ring.win
  rw [Ring.slot_push, Ring.push_pos]
  have e : (r.pos + 1#6 - 39#6 + BitVec.ofNat 6 k) = r.pos - 39#6 + BitVec.ofNat 6 (k + 1) := by
    rw [BitVec.ofNat_add]
    ring
  rw [e]
  have hc : (r.pos - 39#6 + BitVec.ofNat 6 (k + 1) = r.pos) ↔ k = 38 := by
    constructor
    · intro hh
      have h0 : BitVec.ofNat 6 (k + 1) = 39#6 := by
        have := congrArg (fun x => x - r.pos + 39#6) hh
        simpa [sub_eq_add_neg, add_comm, add_left_comm, add_assoc] using this
      have := congrArg BitVec.toNat h0
      simp only [BitVec.toNat_ofNat] at this
      omega
    · rintro rfl
      exact sub_add_cancel _ _
  simp only [hc]

/-- The sum over no tap. -/
@[simp] theorem tapSum_nil (coeff : Nat → F32) (r : Ring) : tapSum coeff [] r = fzero := rfl

/-- The last tap of a sum. -/
theorem tapSum_append_singleton (coeff : Nat → F32) (taps : List Nat) (k : Nat) (r : Ring) :
    tapSum coeff (taps ++ [k]) r = fadd (tapSum coeff taps r) (fmul (toVal (coeff k)) (toVal (r.win k))) := by
  simp [tapSum]

/-- A sum depends on its taps' coefficients and window samples only. -/
theorem tapSum_congr {c d : Nat → F32} {taps : List Nat} {r q : Ring} (hc : ∀ k ∈ taps, c k = d k)
    (hw : ∀ k ∈ taps, r.win k = q.win k) : tapSum c taps r = tapSum d taps q := by
  unfold tapSum
  generalize fzero = a
  induction taps generalizing a with
  | nil => rfl
  | cons k ks ih =>
    simp only [List.foldl_cons]
    rw [hc k List.mem_cons_self, hw k List.mem_cons_self]
    exact ih (fun j hj => hc j (List.mem_cons_of_mem _ hj)) (fun j hj => hw j (List.mem_cons_of_mem _ hj)) _

/-! ### `STATUS` -/

/-- The cause an error leaves in `LAST_CAUSE`. -/
@[simp] theorem lastCause_statusAfter (e : CmdError) (v : Word) : lastCause (statusAfter e v) = causeCode e := by
  unfold lastCause
  ext j hj
  cases e <;> interval_cases j <;> simp [statusAfter, causeBit, causeCode]

/-- The bits of `STATUS` outside `LAST_CAUSE` after an error: the sticky bit is added. -/
theorem statusAfter_getLsbD (e : CmdError) (v : Word) {i : Nat} (h : ¬(4 ≤ i ∧ i < 8)) :
    (statusAfter e v).getLsbD i = (v.getLsbD i || (causeBit e).getLsbD i) := by
  by_cases hi : i < 32
  · cases e <;> interval_cases i <;> simp_all [statusAfter, causeBit, causeCode]
  · rw [BitVec.getLsbD_of_ge _ _ (by omega), BitVec.getLsbD_of_ge _ _ (by omega),
      BitVec.getLsbD_of_ge _ _ (by omega)]
    rfl

/-! ### Shared steps -/

/-- Raising an error writes `STATUS` and `rsp_err`, nothing else (60_exceptions.md R128). -/
theorem State.raise_eq (e : CmdError) (s : State) :
    s.raise e = { s with status := statusAfter e s.status, rspErr := true } := (rfl)

/-- Deriving writes `CUR`, nothing else (42_preset_scaler.md R86). -/
theorem State.rederive_eq (s : State) :
    s.rederive = { s with cur := derive s.base s.ctl.decay s.ctl.ingain s.ctl.revlvl } := (rfl)

/-- Applying a preset writes the index, `BASE`, `CUR` and the Work Area, nothing else (42_preset_scaler.md R85). -/
theorem State.applyPreset_eq (p : Params) (i : Fin 6) (s : State) :
    s.applyPreset p i = { s with
      ctl := { s.ctl with presetIdx := i }
      base := scale (p.preset i)
      cur := derive (scale (p.preset i)) s.ctl.decay s.ctl.ingain s.ctl.revlvl
      wa := resized (p.preset i).sizeBytes.toNat } := (rfl)

/-- Accepting a command drives the response lines, nothing else. -/
theorem State.accept_eq (s : State) : s.accept = { s with rspValid := true, rspErr := false } := (rfl)

/-- Without a command the response lines go to 0, nothing else changes (60_exceptions.md R136). -/
theorem State.idle_eq (s : State) : s.idle = { s with rspValid := false, rspErr := false } := (rfl)

/-- While `rst_n` is low the three output lines are 0, nothing else changes (log 9). -/
theorem State.holdReset_eq (s : State) :
    s.holdReset = { s with cmdReady := false, rspValid := false, rspErr := false } := (rfl)

/-- What a setter stores: a bound, or the operand itself (44_parameter_controller.md R104). -/
theorem clamp01_eq_or (v : F32) : clamp01 v = 0#32 ∨ clamp01 v = 0x3F800000#32 ∨ clamp01 v = v := by
  unfold clamp01 clampBits
  cases flt (toVal v) (toVal 0#32) <;> cases flt (toVal 0x3F800000#32) (toVal v) <;> simp

/-- `Derive` changes five gains (42_preset_scaler.md R83). -/
theorem derive_eq (b : Scaled) (d g l : F32) :
    derive b d g l = { b with
      vWALL := wallGain d b.vWALL, vLIN := inputGain g b.vLIN, vRIN := inputGain g b.vRIN
      vLOUT := outputGain l b.vLOUT, vROUT := outputGain l b.vROUT } := (rfl)

/-- The size is from 1 to 65536 (41_work_area.md R73). -/
theorem sizeFor_mem (bytes : Nat) : 1 ≤ sizeFor bytes ∧ sizeFor bytes ≤ 65536 := by
  have : 1 ≤ nextPow2 (max ((bytes + 1) / 2) 1) := by
    unfold nextPow2
    split
    · exact le_rfl
    · exact Nat.one_le_two_pow
  unfold sizeFor
  omega

/-! ### The items of `GET` -/

/-- A scaled preset has the entries 0 to 33. -/
theorem scaledEntry_isSome (c : Scaled) (f : Nat) : (scaledEntry c f).isSome = decide (f < 34) := by
  by_cases h : f < 34
  · rw [decide_eq_true h]
    interval_cases f <;> rfl
  · rw [decide_eq_false h]
    obtain ⟨k, rfl⟩ := Nat.exists_eq_add_of_le' (Nat.le_of_not_lt h)
    rfl

/-- A raw preset has the fields 0 to 34. -/
theorem rawEntry_isSome (p : RawPreset) (f : Nat) : (rawEntry p f).isSome = decide (f < 35) := by
  by_cases h : f < 35
  · rw [decide_eq_true h]
    interval_cases f <;> rfl
  · rw [decide_eq_false h]
    obtain ⟨k, rfl⟩ := Nat.exists_eq_add_of_le' (Nat.le_of_not_lt h)
    rfl

/-- The control items are 0 to 12. -/
theorem readItem_control (p : Params) (s : State) {n : Nat} (h : n < 256) :
    (readItem p s n).isSome = decide (n ≤ 12) := by
  by_cases hn : n ≤ 12
  · rw [decide_eq_true hn]
    interval_cases n <;> rfl
  · rw [decide_eq_false hn]
    obtain ⟨k, rfl⟩ := Nat.exists_eq_add_of_le' (Nat.lt_of_not_le hn)
    have : (k + 13) / 256 = 0 := by omega
    unfold readItem
    rw [this]
    rfl

/-- `GET` reads exactly the defined items (45_pipeline_and_host.md R113). -/
theorem readItem_isSome (p : Params) (s : State) (item : Half) :
    (readItem p s item.toNat).isSome = definedItem item := by
  unfold definedItem
  have hlt := item.isLt
  generalize item.toNat = n at *
  dsimp only
  rw [Bool.eq_iff_iff]
  by_cases h0 : n < 256
  · rw [readItem_control p s h0]
    simp
    omega
  · have hq : n / 256 ≠ 0 := by omega
    by_cases h1 : n / 256 = 1
    · simp only [readItem, h1, scaledEntry_isSome]
      simp
      omega
    · by_cases h2 : n / 256 = 2
      · simp only [readItem, h2, scaledEntry_isSome]
        simp
        omega
      · by_cases h3 : n / 256 = 3
        · simp only [readItem, h3, rawEntry_isSome]
          simp
          omega
        · obtain ⟨k, hk⟩ := Nat.exists_eq_add_of_le' (show 4 ≤ n / 256 by omega)
          simp only [readItem, hk]
          simp
          omega

/-! ### The meanings on accepted and refused operands -/

theorem hbDec_of_finite (p : Params) (ch : Channel) {x0 x1 : F32} (s : State) (h : (isFinite x0 && isFinite x1) = true) :
    hbDec p ch x0 x1 s = (s.withRing (downRing ch) (decimateRing (s.hb.get (downRing ch)) x0 x1)).withRes0Val
      (decimateOut p.coeff (s.hb.get (downRing ch)) x0 x1) := by
  rw [hbDec, if_pos h]

theorem hbDec_of_not_finite (p : Params) (ch : Channel) {x0 x1 : F32} (s : State)
    (h : (isFinite x0 && isFinite x1) = false) : hbDec p ch x0 x1 s = s.raise .nonfinite := by
  rw [hbDec, if_neg (by simp [h])]

theorem hbInt_of_finite (p : Params) (ch : Channel) {y : F32} (s : State) (h : isFinite y = true) :
    hbInt p ch y s = ((s.withRing (upRing ch) (interpolateRing (s.hb.get (upRing ch)) y)).withRes0Val
      (interpolateOut0 p.coeff (s.hb.get (upRing ch)) y)).withRes1Val
      (interpolateOut1 p.coeff (s.hb.get (upRing ch)) y) := by
  rw [hbInt, if_pos h]

theorem hbInt_of_not_finite (p : Params) (ch : Channel) {y : F32} (s : State) (h : isFinite y = false) :
    hbInt p ch y s = s.raise .nonfinite := by
  rw [hbInt, if_neg (by simp [h])]

theorem getItem_of_some {p : Params} {item : Half} {s : State} {v : Word} (h : readItem p s item.toNat = some v) :
    getItem p item s = s.withRes0 v := by
  simp only [getItem, zextImm, h]

theorem getItem_of_none {p : Params} {item : Half} {s : State} (h : readItem p s item.toNat = none) :
    getItem p item s = s.raise .badItem := by
  simp only [getItem, zextImm, h]

/-- A step that takes an input sample in which `rst_n` does not fall serves what it asks for (30_encoding.md R45). -/
theorem step_cons {s : State} {d : HostDrive} {rest : List HostDrive} (h : s.host = d :: rest)
    (hf : d.rstFalls = false) : step s = serve (requestOf s.cmdReady d) (s.withHost rest) := by
  rw [step, h]
  simp only [sampled, hf, Bool.and_false, State.withHost_cmdReady]

/-- A step in which `rst_n` falls abandons what the sample asks for (70_reset_and_hazards.md R139). -/
theorem step_of_fall {s : State} {d : HostDrive} {rest : List HostDrive} (h : s.host = d :: rest)
    (hr : d.rstN = true) (hf : d.rstFalls = true) :
    step s = .next ((s.withHost rest).abandon (requestOf s.cmdReady d).touches) := by
  rw [step, h]
  simp only [sampled, hr, hf, Bool.and_true, State.withHost_cmdReady]

/-- What a step can be: idle, held in reset, the reset sequence, a rejected word, one command on the accepted state, or
what the sample asks for abandoned. -/
theorem step_cases (s : State) :
    (s.host = [] ∧ step s = .next s.idle) ∨
      ∃ d rest, s.host = d :: rest ∧
        (step s = .next (s.withHost rest).holdReset ∨
          step s = .next ((s.withHost rest).releaseReset Config.params) ∨ step s = .next (s.withHost rest).idle ∨
          (∃ e, step s = .next ((s.withHost rest).accept.raise e)) ∨
          (∃ t, step s = .next ((s.withHost rest).abandon t)) ∨
          ∃ i, decode d.words = .ok i ∧ step s = exec i (s.withHost rest).accept) := by
  cases h : s.host with
  | nil => exact .inl ⟨rfl, by rw [step, h]⟩
  | cons d rest =>
    refine .inr ⟨d, rest, rfl, ?_⟩
    by_cases hd : (d.rstN && d.rstFalls) = true
    · rw [Bool.and_eq_true] at hd
      exact .inr (.inr (.inr (.inr (.inl ⟨_, step_of_fall h hd.1 hd.2⟩))))
    have hs : step s = serve (requestOf s.cmdReady d) (s.withHost rest) := by
      rw [step, h]
      simp only [sampled, Bool.eq_false_iff.2 hd, State.withHost_cmdReady]
    rw [hs]
    unfold requestOf
    split
    · split
      · split
        · split
          · exact .inr (.inr (.inr (.inr (.inr ⟨_, ‹_›, rfl⟩))))
          · exact .inr (.inr (.inr (.inl ⟨_, rfl⟩)))
        · exact .inr (.inr (.inl rfl))
      · exact .inr (.inl rfl)
    · exact .inl rfl

end Sys2Proof.Machine
end

