-- ==== Sys2Proof/Laws/PerInstr.lean ====
section
/-! SUPPORT. For every command, what its encoding looks like under the fields of the command word: the opcode, and the
fixed bits of its row (30_encoding.md R47 to R49). -/

namespace Sys2Proof

/-- The `OPC` field of a command word. -/
theorem commandWord_opc (op : Opcode) (sel : BitVec 4) (imm : Half) :
    (commandWord op sel imm).extractLsb' 24 8 = op.code := by
  unfold commandWord
  ext j hj
  simp only [BitVec.getElem_extractLsb', BitVec.getLsbD_append]
  simp [show ¬(24 + j < 16) by omega, show ¬(24 + j - 16 < 4) by omega, show ¬(24 + j - 16 - 4 < 4) by omega,
    show 24 + j - 16 - 4 - 4 = j by omega, BitVec.getLsbD_eq_getElem hj]

/-- The `IMM` field of a command word. -/
theorem commandWord_imm (op : Opcode) (sel : BitVec 4) (imm : Half) : immField (commandWord op sel imm) = imm := by
  unfold commandWord immField
  ext j hj
  rw [BitVec.getElem_extractLsb', BitVec.getLsbD_append]
  simp [hj]

/-- The `SEL` field of a command word. -/
theorem commandWord_sel (op : Opcode) (sel : BitVec 4) (imm : Half) :
    (commandWord op sel imm).extractLsb' 20 4 = sel := by
  unfold commandWord
  ext j hj
  simp only [BitVec.getElem_extractLsb', BitVec.getLsbD_append]
  simp [show ¬(20 + j < 16) by omega, show ¬(20 + j - 16 < 4) by omega, show 20 + j - 16 - 4 = j by omega, hj]

/-- A command word masked by a format, field by field. -/
theorem commandWord_masked (op : Opcode) (sel ms : BitVec 4) (imm mi : Half) :
    commandWord op sel imm &&& (0xFF#8 ++ ms ++ 0xF#4 ++ mi) = op.code ++ (sel &&& ms) ++ 0#4 ++ (imm &&& mi) := by
  have and_append : ∀ (m n : Nat) (a c : BitVec m) (b d : BitVec n), (a ++ b) &&& (c ++ d) = (a &&& c) ++ (b &&& d) := by
    intro m n a c b d
    ext j hj
    simp only [BitVec.getElem_and, BitVec.getElem_append]
    split <;> rfl
  unfold commandWord
  rw [and_append, and_append, and_append]
  congr 2
  · congr 1
    exact BitVec.and_allOnes

/-- The match word of an opcode: its code above zeros. -/
theorem matchWord_eq (op : Opcode) : op.matchWord = op.code ++ 0#4 ++ 0#4 ++ 0#16 := by
  cases op <;> rfl

namespace Laws

/-- The encoding of a command has its row's opcode and fixed bits. -/
def EncodedRow.Statement (i : Instr) : Prop :=
  (encode i).cmd.extractLsb' 24 8 = i.opcode.code ∧ (encode i).cmd &&& i.opcode.format.mask = i.opcode.matchWord

/-- A word built with its row's opcode meets the statement where its variable fields lie outside the mask. -/
theorem encodedRow_of {i : Instr} (sel ms : BitVec 4) (imm mi : Half)
    (hw : (encode i).cmd = commandWord i.opcode sel imm)
    (hm : i.opcode.format.mask = 0xFF#8 ++ ms ++ 0xF#4 ++ mi) (hs : sel &&& ms = 0#4) (hi : imm &&& mi = 0#16) :
    EncodedRow.Statement i := by
  refine ⟨by rw [hw, commandWord_opc], ?_⟩
  rw [hw, hm, commandWord_masked, matchWord_eq, hs, hi]

theorem EncodedRow.nop : EncodedRow.Statement (.nop) :=
  encodedRow_of 0#4 0xF#4 0#16 0xFFFF#16 rfl rfl (by decide) (by decide)

theorem EncodedRow.init : EncodedRow.Statement (.init) :=
  encodedRow_of 0#4 0xF#4 0#16 0xFFFF#16 rfl rfl (by decide) (by decide)

theorem EncodedRow.hbDec (ch : Channel) (x0 x1 : F32) : EncodedRow.Statement (.hbDec ch x0 x1) :=
  encodedRow_of ch.sel 0xE#4 0#16 0xFFFF#16 rfl rfl (by cases ch <;> rfl) (by decide)

theorem EncodedRow.hbInt (ch : Channel) (y : F32) : EncodedRow.Statement (.hbInt ch y) :=
  encodedRow_of ch.sel 0xE#4 0#16 0xFFFF#16 rfl rfl (by cases ch <;> rfl) (by decide)

theorem EncodedRow.waRd (off : Half) : EncodedRow.Statement (.waRd off) :=
  encodedRow_of 0#4 0xF#4 off 0x0000#16 rfl rfl (by decide) (by simp)

theorem EncodedRow.waWr (off : Half) (v : F32) : EncodedRow.Statement (.waWr off v) :=
  encodedRow_of 0#4 0xF#4 off 0x0000#16 rfl rfl (by decide) (by simp)

theorem EncodedRow.waAdv (n : Half) : EncodedRow.Statement (.waAdv n) :=
  encodedRow_of 0#4 0xF#4 n 0x0000#16 rfl rfl (by decide) (by simp)

theorem EncodedRow.waResize (bytes : Half) : EncodedRow.Statement (.waResize bytes) :=
  encodedRow_of 0#4 0xF#4 bytes 0x0000#16 rfl rfl (by decide) (by simp)

theorem EncodedRow.rvTick (xL xR : F32) : EncodedRow.Statement (.rvTick xL xR) :=
  encodedRow_of 0#4 0xF#4 0#16 0xFFFF#16 rfl rfl (by decide) (by decide)

theorem EncodedRow.psApply (idx : Half) : EncodedRow.Statement (.psApply idx) :=
  encodedRow_of 0#4 0xF#4 idx 0x0000#16 rfl rfl (by decide) (by simp)

theorem EncodedRow.psDecay (v : F32) : EncodedRow.Statement (.psDecay v) :=
  encodedRow_of 0#4 0xF#4 0#16 0xFFFF#16 rfl rfl (by decide) (by decide)

theorem EncodedRow.psIngain (v : F32) : EncodedRow.Statement (.psIngain v) :=
  encodedRow_of 0#4 0xF#4 0#16 0xFFFF#16 rfl rfl (by decide) (by decide)

theorem EncodedRow.psRevlvl (v : F32) : EncodedRow.Statement (.psRevlvl v) :=
  encodedRow_of 0#4 0xF#4 0#16 0xFFFF#16 rfl rfl (by decide) (by decide)

theorem EncodedRow.psMix (v : F32) : EncodedRow.Statement (.psMix v) :=
  encodedRow_of 0#4 0xF#4 0#16 0xFFFF#16 rfl rfl (by decide) (by decide)

theorem EncodedRow.psDerive : EncodedRow.Statement (.psDerive) :=
  encodedRow_of 0#4 0xF#4 0#16 0xFFFF#16 rfl rfl (by decide) (by decide)

theorem EncodedRow.get (item : Half) : EncodedRow.Statement (.get item) :=
  encodedRow_of 0#4 0xF#4 item 0x0000#16 rfl rfl (by decide) (by simp)

theorem EncodedRow.getHb (h : RingSel) (slot : BitVec 6) : EncodedRow.Statement (.getHb h slot) :=
  encodedRow_of h.sel 0xC#4 (slot.zeroExtend 16) 0xFFC0#16 rfl rfl (by cases h <;> rfl) (by
    ext j hj
    simp only [BitVec.getElem_and, BitVec.getElem_setWidth, BitVec.getElem_zero, BitVec.zeroExtend_eq_setWidth]
    by_cases h6 : j < 6
    · interval_cases j <;> simp
    · rw [BitVec.getLsbD_of_ge _ _ (by omega), Bool.false_and])

theorem EncodedRow.processPair (f0 f1 : Word) : EncodedRow.Statement (.processPair f0 f1) :=
  encodedRow_of 0#4 0xF#4 0#16 0xFFFF#16 rfl rfl (by decide) (by decide)

end Laws

end Sys2Proof
end

