-- ==== Sys2Proof/Tests/Slice0.lean ====
section
/-! SUPPORT. Tests of one step or one function each, and the witnesses of the statements. The expected values are those
of 95_test_vectors.md (V and P numbers) or of the encoding tables; the configurations TC1, TP1 and T3 are that file's
section 1. -/

namespace Sys2Proof.Tests

open Sys2Proof.Machine

set_option Elab.async false

/-! ### Configurations and states -/

/-- TC1. -/
def tc1 (k : Nat) : F32 := if k = 18 ∨ k = 20 then 0x3E800000#32 else if k = 19 then 0x3F000000#32 else 0#32

/-- TP1. -/
def tp1 : RawPreset where
  dAPF1 := 1
  dAPF2 := 3
  vIIR := 16384
  vCOMB1 := 16384
  vCOMB2 := 8192
  vCOMB3 := 0
  vCOMB4 := 0
  vWALL := 0xC000
  vAPF1 := 8192
  vAPF2 := 0xE000
  dLSAME := 14
  dRSAME := 6
  mLSAME := 1
  mRSAME := 9
  dLDIFF := 4
  dRDIFF := 12
  mLDIFF := 3
  mRDIFF := 11
  mLCOMB1 := 0
  mRCOMB1 := 8
  mLCOMB2 := 2
  mRCOMB2 := 10
  mLCOMB3 := 14
  mRCOMB3 := 6
  mLCOMB4 := 12
  mRCOMB4 := 4
  mLAPF1 := 5
  mRAPF1 := 13
  mLAPF2 := 7
  mRAPF2 := 15
  vLIN := 16384
  vRIN := 16384
  vLOUT := 16384
  vROUT := 16384
  sizeBytes := 32

/-- TC1 with T3: entry 5 has another wall gain and size. -/
def p3 : Params := ⟨tc1, fun i => if i = 5 then { tp1 with vWALL := 0x8000, sizeBytes := 64 } else tp1⟩

/-- The reset state of that configuration. -/
def s0 : State := State.resetOf p3

/-- A ring with one sample 1.0 in a slot. -/
def impulse (i : Fin 64) (pos : BitVec 6) : Ring := ⟨(Vector.replicate 64 0#32).set i 0x3F800000#32, pos⟩

/-- The state an outcome goes on with. -/
def after (o : Host.Outcome State Fault Refusal) (s : State) : State :=
  match o with
  | .next t => t
  | _ => s

/-! ### Ill-formed commands -/

theorem test_ill_formed_hb_dec_infinity : Instr.wellFormed (.hbDec .left 0#32 0x7F800000#32) = false := by decide
theorem test_ill_formed_hb_int_nan : Instr.wellFormed (.hbInt .right 0x7FC00000#32) = false := by decide
theorem test_ill_formed_wa_wr_negative_infinity : Instr.wellFormed (.waWr 0#16 0xFF800000#32) = false := by decide
theorem test_ill_formed_rv_tick_nan : Instr.wellFormed (.rvTick 0xFFFFFFFF#32 0#32) = false := by decide
theorem test_ill_formed_get : ([0x000D#16, 0x00FF#16, 0x0122#16, 0x01FF#16, 0x0222#16, 0x0323#16, 0x0400#16].map
    fun n => Instr.wellFormed (.get n)) = List.replicate 7 false := by decide
theorem test_well_formed_boundary : ([0x000C#16, 0x0121#16, 0x0221#16, 0x0322#16].map
    fun n => Instr.wellFormed (.get n)) = List.replicate 4 true := by decide
theorem test_well_formed_setter_nan : Instr.wellFormed (.psMix 0x7FC00000#32) = true := by decide

/-! ### Words of every command (30_encoding.md R49, R56; 95_test_vectors.md section 4) -/

theorem test_decode_nop : decode ⟨0x00000000#32, 5#32, 6#32⟩ = .ok .nop := by decide
theorem test_decode_init : decode ⟨0x01000000#32, 0#32, 0#32⟩ = .ok .init := by decide
theorem test_decode_hb_dec : decode ⟨0x10000000#32, 0x3F800000#32, 7#32⟩ = .ok (.hbDec .left 0x3F800000#32 7#32) := by
  decide
theorem test_decode_hb_int : decode ⟨0x11100000#32, 0x3F800000#32, 0#32⟩ = .ok (.hbInt .right 0x3F800000#32) := by decide
theorem test_decode_wa_rd : decode ⟨0x2000000D#32, 0#32, 0#32⟩ = .ok (.waRd 13#16) := by decide
theorem test_decode_wa_wr : decode ⟨0x2100FFFF#32, 0xBF800000#32, 0#32⟩ = .ok (.waWr 0xFFFF#16 0xBF800000#32) := by decide
theorem test_decode_wa_adv : decode ⟨0x22000006#32, 0#32, 0#32⟩ = .ok (.waAdv 6#16) := by decide
theorem test_decode_wa_resize : decode ⟨0x23000010#32, 0#32, 0#32⟩ = .ok (.waResize 16#16) := by decide
theorem test_decode_rv_tick : decode ⟨0x30000000#32, 0x3F000000#32, 1#32⟩ = .ok (.rvTick 0x3F000000#32 1#32) := by decide
theorem test_decode_ps_apply : decode ⟨0x4000FFFF#32, 0#32, 0#32⟩ = .ok (.psApply 0xFFFF#16) := by decide
theorem test_decode_ps_decay : decode ⟨0x41000000#32, 0x3F400000#32, 0#32⟩ = .ok (.psDecay 0x3F400000#32) := by decide
theorem test_decode_ps_ingain : decode ⟨0x42000000#32, 0x7FC00000#32, 0#32⟩ = .ok (.psIngain 0x7FC00000#32) := by decide
theorem test_decode_ps_revlvl : decode ⟨0x43000000#32, 0x40000000#32, 0#32⟩ = .ok (.psRevlvl 0x40000000#32) := by decide
theorem test_decode_ps_mix : decode ⟨0x44000000#32, 0x3F000000#32, 0#32⟩ = .ok (.psMix 0x3F000000#32) := by decide
theorem test_decode_ps_derive : decode ⟨0x45000000#32, 0#32, 0#32⟩ = .ok .psDerive := by decide
theorem test_decode_get : decode ⟨0x50000322#32, 0#32, 0#32⟩ = .ok (.get 0x0322#16) := by decide
theorem test_decode_get_hb : [0x51000000#32, 0x51100001#32, 0x51200020#32, 0x5130003F#32].map
    (fun w => decode ⟨w, 0#32, 0#32⟩) =
    [.ok (.getHb .downL 0#6), .ok (.getHb .downR 1#6), .ok (.getHb .upL 32#6), .ok (.getHb .upR 63#6)] := by decide
theorem test_decode_process_pair : decode ⟨0x60000000#32, 0xFF380064#32, 0x80007FFF#32⟩ =
    .ok (.processPair 0xFF380064#32 0x80007FFF#32) := by decide

/-- V1: unknown opcodes and set reserved bits; the opcode is checked first. -/
theorem test_decode_rejected : [0x7F000000#32, 0x41010000#32, 0x7F010000#32, 0x51800000#32, 0x10110000#32].map
    (fun w => decode ⟨w, 0#32, 0#32⟩) =
    [.rejected .illOpc, .rejected .rsv, .rejected .illOpc, .rejected .rsv, .rejected .rsv] := by decide

/-- The opcode table of the decoder is the table of 30_encoding.md R49. -/
theorem test_opcode_table : opcodes.map (fun op => (op.matchWord, op.format.mask)) = tableRows := by decide

/-- Operand bits above the command word of a table row. -/
theorem test_decode_table_word : decodeTableWord 96 0x00000007_3F800000_10100000 =
    some (.hbDec .right 0x3F800000#32 7#32) ∧ decodeTableWord 32 0x3F800000_10100000 = some (.hbDec .right 0#32 0#32) ∧
    decodeTableWord 32 0x7F000000 = none := by decide

/-! ### The command interface -/

/-- The command placed where the step takes its next command is the one that runs. -/
theorem test_fetch_word_runs : step (s0.withFetchWord 32 0x50000005) =
    exec (.get 5#16) ((s0.withHost []).withLines true true false) := by rfl

/-- A transferred `GET 5` completes: `NUM_PRESETS`, a valid response (V7.4). -/
theorem test_step_get : (after (step (s0.withFetchWord 32 0x50000005)) s0).res0 = 6#32 ∧
    (after (step (s0.withFetchWord 32 0x50000005)) s0).rspValid = true := by decide +kernel

/-- V1 rows 2 and 6: the sticky bits and the last cause. -/
theorem test_step_illegal_opcode : (after (step (s0.withFetchWord 32 0x7F000000)) s0).status = 0x11#32 ∧
    (after (step ((s0.withStatus 0x4F#32).withFetchWord 32 0x7F010000)) s0).status = 0x1F#32 := by decide +kernel

/-- V1 row 3: a reserved bit. -/
theorem test_step_reserved_bit : (after (step ((s0.withStatus 0x11#32).withFetchWord 32 0x41010000)) s0).status = 0x23#32 ∧
    (after (step (s0.withFetchWord 32 0x41010000)) s0).rspErr = true := by decide +kernel

/-- In reset nothing is transferred. -/
theorem test_step_in_reset : (after (step (s0.withHost [⟨false, true, ⟨0x50000005#32, 0#32, 0#32⟩, false⟩])) s0).cmdReady = false ∧
    (after (step (s0.withHost [⟨false, true, ⟨0x50000005#32, 0#32, 0#32⟩, false⟩])) s0).rspValid = false := by decide +kernel

/-- 70_reset_and_hazards.md R139: `rst_n` falls on a `GET`; no response, and only `RES0` may have changed. -/
theorem test_step_abandoned : let t := after (step (s0.withHost [⟨true, true, ⟨0x50000005#32, 0#32, 0#32⟩, true⟩])) s0
    t.cmdReady = false ∧ t.rspValid = false ∧ t.res1 = 0#32 ∧ t.status = 0#32 ∧ t.wa = s0.wa ∧ t.hb = s0.hb := by
  decide +kernel

/-- After an abandoned command the release of `rst_n` gives `STATUS` and the rings their reset values. -/
theorem test_step_released : let t := after (step (s0.abandon Touched.all)) s0
    let u := after (step ((s0.abandon Touched.all).withHost [presented ⟨0#32, 0#32, 0#32⟩])) s0
    t.cmdReady = false ∧ u.cmdReady = true ∧ u.rspValid = false ∧ u.status = 0#32 ∧ u.hb = Rings.reset := by
  decide +kernel

/-! ### One step of each instruction -/

theorem test_nop : exec .nop s0 = .next s0 := by rfl

/-- V1 row 9. -/
theorem test_init_clears_status : (after (exec .init (s0.withStatus 0x2F#32)) s0).status = 0#32 := by decide +kernel

/-- V2.1, call 10: the impulse under the middle tap. -/
theorem test_hb_dec_impulse : (hbDec p3 .left 0#32 0#32 (s0.withRing .downL (impulse 0 18#6))).res0 = 0x3F000000#32 := by
  decide +kernel

/-- V2.10: both samples are pushed; V2.11: the right ring is untouched. -/
theorem test_hb_dec_pushes : let t := hbDec p3 .left 0x3E800000#32 0x3F400000#32 s0
    t.hb.downL.slot 0#6 = 0x3E800000#32 ∧ t.hb.downL.slot 1#6 = 0x3F400000#32 ∧ t.hb.downL.pos = 2#6 ∧
      t.hb.downR = s0.hb.downR := by decide +kernel

/-- V2.6, call 10. -/
theorem test_hb_int_impulse : let t := hbInt p3 .left 0#32 (s0.withRing .upL (impulse 0 18#6))
    t.res0 = 0x3F000000#32 ∧ t.res1 = 0x3F800000#32 := by decide +kernel

/-- V1 row 5 for `HB_INT`: a NaN operand is refused and nothing is pushed. -/
theorem test_hb_int_nan : let t := hbInt p3 .right 0x7FC00000#32 (s0.withStatus 0x37#32)
    t.status = 0x4F#32 ∧ t.rspErr = true ∧ t.hb.upR.pos = 0#6 := by decide +kernel

/-- The Work Area of program P1 at its line 5. -/
def waP1 : WorkArea := ⟨[(3, 16384#16)], 8, 7#16, 6#16⟩

/-- P1 line 5. -/
theorem test_wa_rd_wraps : (after (exec (.waRd 13#16) (s0.withWa waP1)) s0).res0 = 0x3F000000#32 := by decide +kernel

/-- P4 line 6. -/
theorem test_wa_rd_negative :
    (after (exec (.waRd 10#16) (s0.withWa ⟨[(13, 0xFD00#16)], 16, 15#16, 3#16⟩)) s0).res0 = 0xBCC00000#32 := by
  decide +kernel

/-- P1 line 6. -/
theorem test_wa_wr_wraps :
    (after (exec (.waWr 0xFFFF#16 0xBF800000#32) (s0.withWa waP1)) s0).wa.ram = [(3, 16384#16), (5, 0x8000#16)] := by
  decide +kernel

/-- V3.3: truncation toward zero, saturation, and a stored 0 leaves no cell. -/
theorem test_wa_wr_converts : [0xB8400000#32, 0x3F800000#32, 0x7149F2CA#32, 0x80000000#32].map
    (fun v => (after (exec (.waWr 0#16 v) s0) s0).wa.ram) =
    [[(0, 0xFFFF#16)], [(0, 0x7FFF#16)], [(0, 0x7FFF#16)], []] := by decide +kernel

/-- V3.2: `WA_ADV 5` from base 6 of 8 samples; of 1 sample the base stays 0. -/
theorem test_wa_adv : (after (exec (.waAdv 5#16) (s0.withWa waP1)) s0).wa.base = 3#16 ∧
    (after (exec (.waAdv 5#16) (s0.withWa (resized 0))) s0).wa.base = 0#16 := by decide +kernel

/-- V3.1. -/
theorem test_size_for : [0, 1, 2, 3, 4, 5, 16, 17, 32, 9920, 44512, 63168, 65535].map sizeFor =
    [1, 1, 1, 2, 2, 4, 8, 16, 16, 8192, 32768, 32768, 32768] := by decide +kernel

/-- P1 line 2, V3.4. -/
theorem test_wa_resize : (after (exec (.waResize 16#16) (s0.withWa waP1)) s0).wa = ⟨[], 8, 7#16, 0#16⟩ := by decide +kernel

/-- The Work Area of V5 after tick 2. -/
def waTick2 : WorkArea :=
  ⟨[(1, 4096#16), (2, 2048#16), (3, 4096#16), (4, 2048#16), (6, 3072#16), (8, 768#16)], 16, 15#16, 2#16⟩

/-- V5 tick 3: the outputs and the base. -/
theorem test_rv_tick_outputs : let t := after (exec (.rvTick 0#32 0#32) (s0.withWa waTick2)) s0
    t.res0 = 0x3D810000#32 ∧ t.res1 = 0#32 ∧ t.wa.base = 3#16 := by decide +kernel

/-- V5 tick 3: the Work Area after it (program P4's end state). -/
theorem test_rv_tick_writes : let t := after (exec (.rvTick 0#32 0#32) (s0.withWa waTick2)) s0
    (List.range 16).map (fun a => (t.wa.read a).toInt) =
      [0, 0, 2048, 1024, 2048, 1024, 3072, 768, 768, 4032, 0, -192, 0, -768, 0, 0] := by decide +kernel

/-- V4.2. -/
theorem test_preset_index_clamps : [7#16, 6#16, 32767#16, 0xFFFF#16, 0x8000#16, 3#16].map presetOf = [5, 5, 5, 0, 0, 3] := by
  decide +kernel

/-- V4.5 and P3 line 2. -/
theorem test_ps_apply : let t := (s0.withCtl { s0.ctl with decay := 0x3F400000#32 }).applyPreset p3 5
    t.cur.vWALL = 0xBF7EB852#32 ∧ t.ctl.decay = 0x3F400000#32 ∧ t.wa = ⟨[], 32, 31#16, 0#16⟩ := by decide +kernel

/-- V6.1 at 0.8. -/
theorem test_ps_decay : (after (exec (.psDecay 0x3F4CCCCD#32) s0) s0).cur.vWALL = 0xBF4B4396#32 := by decide +kernel

/-- V6.7: `−0.0` is kept, larger operands are clamped. -/
theorem test_ps_decay_clamps : [0x80000000#32, 0x3FC00000#32, 0xC0000000#32].map
    (fun v => (after (exec (.psDecay v) s0) s0).ctl.decay) = [0x80000000#32, 0x3F800000#32, 0#32] := by decide +kernel

/-- V6.8. -/
theorem test_ps_ingain : let t := after (exec (.psIngain 0x3F800000#32) s0) s0
    t.cur.vLIN = 0x3F800000#32 ∧ t.cur.vLOUT = s0.cur.vLOUT := by decide +kernel

/-- V6.7: a NaN leaves the gain and raises nothing. -/
theorem test_ps_ingain_nan : let t := after (exec (.psIngain 0x7FC00000#32) s0) s0
    t.ctl.ingain = 0x3F000000#32 ∧ t.status = 0#32 ∧ t.rspErr = false := by decide +kernel

/-- P3 line 9. -/
theorem test_ps_revlvl : let t := after (exec (.psRevlvl 0x40000000#32) s0) s0
    t.ctl.revlvl = 0x3F800000#32 ∧ t.cur.vLOUT = 0x40000000#32 ∧ t.cur.vLIN = s0.cur.vLIN := by decide +kernel

/-- V6.7: `−∞` is clamped. -/
theorem test_ps_mix : let t := after (exec (.psMix 0xFF800000#32) s0) s0
    t.ctl.mix = 0#32 ∧ t.ctl.decay = 0x3F000000#32 := by decide +kernel

/-- V4.4. -/
theorem test_ps_derive : (after (exec .psDerive s0) s0).cur = s0.cur := by rfl

/-- V4.1 and V6.3 to V6.6: wall gains of other presets. -/
theorem test_wall_gains : [(0#16, 0x3F800000#32), (0x8000#16, 0x3F4CCCCD#32), (32767#16, 0x3F400000#32),
    (3000#16, 0x3F800000#32), (0x8147#16, 0x3F800000#32)].map (fun x => wallGain x.2 (gainOf x.1)) =
    [0#32, 0xBF7E76C9#32, 0x3F7EB753#32, 0x3F6A6000#32, 0xBF7D70A4#32] := by decide +kernel

/-- V4.1: a raw gain is sign-extended, a scaled gain is its encoding. -/
theorem test_get : (getItem p3 0x0307#16 s0).res0 = 0xFFFFC000#32 ∧ (getItem p3 0x0220#16 s0).res0 = 0x3F800000#32 := by
  decide +kernel

/-- V1 row 4. -/
theorem test_get_undefined_item : let t := getItem p3 0x0122#16 (s0.withStatus 0x23#32)
    t.status = 0x37#32 ∧ t.rspErr = true ∧ t.res0 = 0#32 := by decide +kernel

/-- `GET_HB` by absolute slot, whatever the cursor (P2 line 7). -/
theorem test_get_hb : (after (exec (.getHb .upR 5#6) (s0.withRing .upR (impulse 5 22#6))) s0).res0 = 0x3F800000#32 := by
  decide +kernel

/-- V7.2 row 1: with a mix of 0 the input comes back. -/
theorem test_process_pair_dry : let t := processPair p3 0xFF380064#32 0x80007FFF#32 (s0.withCtl { s0.ctl with mix := 0#32 })
    t.res0 = 0xFF380064#32 ∧ t.res1 = 0x80007FFF#32 := by decide +kernel

/-- V7.2 row 2, P5: half the input, the base and the cursors advanced. -/
theorem test_process_pair_half : let t := processPair p3 0xC0004000#32 0x00002000#32 s0
    t.res0 = 0xE0002000#32 ∧ t.res1 = 0x00001000#32 ∧ t.wa.base = 1#16 ∧ t.hb.downR.pos = 2#6 ∧ t.hb.upL.pos = 2#6 := by
  decide +kernel

/-- V7.1. -/
theorem test_mix : [(0x3F800000#32, 0#32, 0x3FC00000#32), (0x3F800000#32, 0#32, 0xC0400000#32),
    (0x3F000000#32, 0x3E800000#32, 0xBF400000#32), (0x3E800000#32, 0x3F7FFE00#32, 0#32),
    (0x3F800000#32, 0#32, 0x7FC00000#32)].map (fun x => (mixQ (toVal x.1) (toVal x.2.1) (toVal x.2.2)).toInt) =
    [32767, -32768, -8192, 24575, 0] := by decide +kernel

/-! ### Witnesses: for each statement with hypotheses, a state and operands that meet them together -/

/-- A state the host presents a command in. -/
def presenting (c : CmdWords) : State := s0.withHost [presented c]

/-- A state other than the reset state in which `BASE` and `CUR` are derived and the controls legal. -/
def sHall : State := { State.reset with
  ctl := ⟨4, 0x3F4CCCCD#32, 0x3F800000#32, 0x80000000#32, 0x3F800000#32⟩
  base := scale (Config.params.preset 4)
  cur := derive (scale (Config.params.preset 4)) 0x3F4CCCCD#32 0x80000000#32 0x3F800000#32 }

theorem witness_hall_coherent : Coherent sHall := ⟨rfl, rfl⟩
theorem witness_hall_legal : sHall.ctl.Legal := by decide +kernel

/-- The hypothesis of `EncodeOfDecodedIsTheWord`. -/
theorem witness_decoded : decode ⟨0x10100000#32, 1#32, 2#32⟩ = .ok (.hbDec .right 1#32 2#32) := by decide

/-- `StepRunsTheTransferredCommand`. -/
theorem witness_transferred : (presenting ⟨0x22000006#32, 0#32, 0#32⟩).host = ⟨true, true, ⟨0x22000006#32, 0#32, 0#32⟩, false⟩ :: [] ∧
    (presenting ⟨0x22000006#32, 0#32, 0#32⟩).cmdReady = true ∧
    decode ⟨0x22000006#32, 0#32, 0#32⟩ = .ok (.waAdv 6#16) := ⟨rfl, rfl, by decide⟩

/-- `RejectedWordRaisesItsError`, both clauses. -/
theorem witness_rejected : ∀ c ∈ [(⟨0x7F000000#32, 0#32, 0#32⟩, Reject.illOpc), (⟨0x41010000#32, 0#32, 0#32⟩, Reject.rsv)],
    (presenting c.1).host = ⟨true, true, c.1, false⟩ :: [] ∧ (presenting c.1).cmdReady = true ∧
      decode c.1 = .rejected c.2 := by
  intro c _
  simp_all only [List.mem_cons, List.not_mem_nil, or_false]
  rcases ‹_ ∨ _› with rfl | rfl <;> exact ⟨rfl, rfl, by decide⟩

/-- `MalformedOperandsRaiseAndChangeNothingElse`, every command that can be malformed. -/
theorem witness_malformed : ([.hbDec .left 0x7F800000#32 0#32, .hbInt .right 0xFFC00000#32, .waWr 0#16 0xFF800000#32,
    .rvTick 0#32 0x7F800001#32, .get 0x000D#16].map Instr.wellFormed) = List.replicate 5 false := by decide

/-- `WellFormedCommandsCompleteWithoutError`. -/
theorem witness_well_formed : Instr.wellFormed (.hbDec .left 0x7F7FFFFF#32 0x80000000#32) = true ∧
    Instr.hbDec .left 0x7F7FFFFF#32 0x80000000#32 ≠ .init := by decide

/-- `CommandsWriteOnlyTheirColumns`, every clause. -/
theorem witness_columns : notIn .nop [.init, .psApply, .psDecay, .psIngain, .psRevlvl, .psMix] ∧
    notIn (.psMix 0#32) [.init, .psApply] ∧ notIn (.psMix 0#32) [.init, .psDecay] ∧
    notIn (.psDecay 0#32) [.init, .psIngain] ∧ notIn (.psApply 0#16) [.init, .psRevlvl] ∧
    notIn (.psIngain 0#32) [.init, .psMix] ∧ Instr.wellFormed (.psMix 0#32) = true ∧ Instr.psMix 0#32 ≠ .init ∧
    Instr.wellFormed (.get 0x000D#16) = false ∧
    notIn (.psMix 0#32) [.init, .psApply, .psDecay, .psIngain, .psRevlvl, .psDerive] ∧
    notIn (.rvTick 0#32 0#32) [.init, .hbDec, .hbInt, .processPair] ∧ (Instr.hbDec .left 0#32 0#32).opcode = .hbDec ∧
    (Instr.hbInt .left 0#32).opcode = .hbInt ∧
    notIn (.waAdv 1#16) [.init, .waWr, .waResize, .rvTick, .psApply, .processPair] ∧
    notIn (.waWr 1#16 0#32) [.init, .waAdv, .waResize, .rvTick, .psApply, .processPair] ∧
    notIn (.rvTick 0#32 0#32) [.init, .waResize, .psApply] ∧
    notIn (.waWr 1#16 0#32) [.init, .hbDec, .hbInt, .waRd, .rvTick, .get, .getHb, .processPair] ∧
    notIn (.hbDec .left 0#32 0#32) [.init, .hbInt, .rvTick, .processPair] := by
  unfold notIn
  decide

/-- `ResetSignalLeavesTheResetState`. -/
theorem witness_reset_signal : (s0.withHost [⟨false, true, ⟨0x50000005#32, 0#32, 0#32⟩, false⟩, presented ⟨0#32, 0#32, 0#32⟩]).host =
    ⟨false, true, ⟨0x50000005#32, 0#32, 0#32⟩, false⟩ :: presented ⟨0#32, 0#32, 0#32⟩ :: [] ∧
    (presented ⟨0#32, 0#32, 0#32⟩).rstN = true ∧ (presented ⟨0#32, 0#32, 0#32⟩).rstFalls = false := ⟨rfl, rfl, rfl⟩

/-- The second clause of `ResetSignalLeavesTheResetState`: `rst_n` falls on a `PS_APPLY`. -/
theorem witness_abandoned : (s0.withHost [⟨true, true, ⟨0x40000005#32, 0#32, 0#32⟩, true⟩, presented ⟨0#32, 0#32, 0#32⟩]).host =
    ⟨true, true, ⟨0x40000005#32, 0#32, 0#32⟩, true⟩ :: presented ⟨0#32, 0#32, 0#32⟩ :: [] ∧ s0.cmdReady = true ∧
    decode ⟨0x40000005#32, 0#32, 0#32⟩ = .ok (.psApply 5#16) := ⟨rfl, rfl, by decide⟩

/-- `IdleStepHoldsTheState`, both clauses. -/
theorem witness_idle : s0.host = [] ∧ (s0.withHost [⟨true, false, ⟨0x01000000#32, 0#32, 0#32⟩, false⟩]).host =
    ⟨true, false, ⟨0x01000000#32, 0#32, 0#32⟩, false⟩ :: [] ∧
    (s0.withHost [⟨true, false, ⟨0x01000000#32, 0#32, 0#32⟩, false⟩]).cmdReady = true := ⟨rfl, rfl, rfl⟩

/-- `GetReturnsEveryDefinedItem`: the last index of each list, and undefined items beside each range. -/
theorem witness_items : 12 < (controlWords s0).length ∧ 33 < (scaledWords s0.base).length ∧
    33 < (scaledWords s0.cur).length ∧ 34 < (rawWords tp1).length ∧
    ∀ item ∈ [0x000D#16, 0x00FF#16, 0x0122#16, 0x01FF#16, 0x0222#16, 0x02FF#16, 0x0323#16, 0xFFFF#16],
      0x000C < item.toNat ∧ ¬(0x0100 ≤ item.toNat ∧ item.toNat ≤ 0x0121) ∧
        ¬(0x0200 ≤ item.toNat ∧ item.toNat ≤ 0x0221) ∧ ¬(0x0300 ≤ item.toNat ∧ item.toNat ≤ 0x0322) := by
  refine ⟨by decide, by decide, by decide, by decide, fun item h => ?_⟩
  simp only [List.mem_cons, List.not_mem_nil, or_false] at h
  rcases h with rfl | rfl | rfl | rfl | rfl | rfl | rfl | rfl <;> simp

/-- The statements about the Work Area: the least size, P1's, and the largest with its last sample in use. -/
theorem witness_work_area : (resized 0).Inv ∧ waP1.Inv ∧ (⟨[(65535, 1#16)], 65536, 0xFFFF#16, 0xFFFF#16⟩ : WorkArea).Inv ∧
    (s0.withWa waP1).wa.Inv := by decide +kernel

/-- `WaWrStoresTheTruncatedSample` and `WaRdAfterWaWrReturnsTheStoredValue`: a finite operand of each sign, `−0.0` among
them. -/
theorem witness_stored : (s0.withWa waP1).wa.Inv ∧ toVal 0xB8400000#32 = .num true (3 * 2 ^ 133) ∧
    toVal 0x80000000#32 = .num true 0 ∧ toVal 0x7F7FFFFF#32 = .num false ((2 ^ 24 - 1) * 2 ^ 253) := by decide +kernel

/-- `ToS16TruncatesAndSaturates`: each clause at its bounds. -/
theorem witness_to_s16 : fle (whole false 32767) (whole false 32767) = true ∧ fle (whole false 32767) (.inf false) = true ∧
    fle (whole true 32768) (whole true 32768) = true ∧ fle (.inf true) (whole true 32768) = true ∧
    flt (.num false (32767 * 2 ^ 149 - 1)) (whole false 32767) = true ∧
    flt (whole true 32768) (.num false (32767 * 2 ^ 149 - 1)) = true ∧
    flt (.num true (32768 * 2 ^ 149 - 1)) (whole false 32767) = true ∧
    flt (whole true 32768) (.num true (32768 * 2 ^ 149 - 1)) = true := by decide +kernel

/-- Finite operands of `HB_DEC`, `HB_INT`, `RV_TICK`, with a Work Area that meets its invariant. -/
theorem witness_finite : isFinite 0x7F7FFFFF#32 = true ∧ isFinite 0x80000000#32 = true ∧ (s0.withWa waTick2).wa.Inv := by
  decide +kernel

/-- `DecimationForgetsOldSamples`: two rings that differ in their oldest window sample. -/
theorem witness_old_samples : impulse 0 39#6 ≠ impulse 1 39#6 ∧
    ∀ k, k < 39 → 2 ≤ k → windowSample (impulse 0 39#6) k = windowSample (impulse 1 39#6) k := by decide +kernel

/-- `PhaseSumsAreFullSumsOnAStuffedRing`: rings stuffed on each side, not all zero. -/
theorem witness_stuffed : (∀ k, k < 39 → isFinite (tc1 k) = true) ∧
    (∀ k, k < 39 → k % 2 = 1 → windowSample (impulse 2 39#6) k = 0#32) ∧
    (∀ k, k < 39 → k % 2 = 0 → windowSample (impulse 3 39#6) k = 0#32) ∧
    windowSample (impulse 2 39#6) 2 ≠ 0#32 ∧ windowSample (impulse 3 39#6) 3 ≠ 0#32 := by decide +kernel

/-- The setters: an operand that is a NaN, one that is not, and a state with derived presets. -/
theorem witness_setters : isNaN 0x7FC00000#32 = true ∧ isNaN 0xFF800000#32 = false ∧ isNaN 0x3F000000#32 = false ∧
    Coherent sHall := ⟨by decide, by decide, by decide, witness_hall_coherent⟩

/-- `SettersCommuteAndRepeatHarmlessly`: two commands of the list. -/
theorem witness_setter_list : Instr.psDecay 1#32 ∈ [Instr.psDecay 1#32, .psIngain 2#32, .psRevlvl 3#32, .psMix 4#32] ∧
    Instr.psMix 4#32 ∈ [Instr.psDecay 1#32, .psIngain 2#32, .psRevlvl 3#32, .psMix 4#32] := by decide

/-- `RestoreOrderDoesNotMatter`: the order reversed. -/
theorem witness_restore_order : [Instr.psMix 4#32, .psRevlvl 3#32, .psIngain 2#32, .psDecay 1#32].Perm
    [.psDecay 1#32, .psIngain 2#32, .psRevlvl 3#32, .psMix 4#32] := by decide

/-- `RestoreBringsBackControlsAndPresets`, `WallGainStaysWithinBounds`, `GainsStayInTheirRanges`. -/
theorem witness_legal_controls : Coherent sHall ∧ sHall.ctl.Legal := ⟨witness_hall_coherent, witness_hall_legal⟩

/-- `DecayScaleIsMonotone`: the greatest wall gain, decays at both ends. -/
theorem witness_monotone : (32440#16).toInt.natAbs ≤ 32440 ∧ (0x8148#16).toInt.natAbs ≤ 32440 ∧
    inUnit 0x80000000#32 = true ∧ inUnit 0x3F800000#32 = true ∧
    fle (toVal 0x80000000#32) (toVal 0x3F800000#32) = true := by decide +kernel

/-- `GainControlsScaleExactly`: a gain for the least, the zero and the greatest raw gain. -/
theorem witness_gain_encodings : toVal 0xBF800000#32 = exact16 0x8000#16 ∧ toVal 0#32 = exact16 0#16 ∧
    toVal 0x3F7FFE00#32 = exact16 0x7FFF#16 := by decide +kernel

/-- `TickWithoutAliasingSeesThePriorTick`: TP1 on sixteen samples. -/
theorem witness_no_aliasing : waTick2.ram.wf = true ∧ NoAliasing (scale tp1) waTick2 := by
  unfold NoAliasing
  decide +kernel

/-- `TickIsItsStepsInOrder`: TP1's aliasing offsets, and a Work Area of one sample, where every address is one. -/
theorem witness_ordered_tick : waTick2.Inv ∧ (resized 0).Inv ∧
    (resized 0).ea (scale tp1).mLSAME.toNat = (resized 0).ea (scale tp1).mRSAME.toNat := by decide +kernel

/-- The operations in `RoundingIsToNearestEven`: sums that are zero and not, positive factors and divisors. -/
theorem witness_operations : signedUnits true 3 + signedUnits false 3 = 0 ∧ signedUnits true 0 + signedUnits true 0 = 0 ∧
    signedUnits true 3 + signedUnits false 4 ≠ 0 ∧ 0 < 1 := by decide

/-- `SilenceGivesSilence`. -/
theorem witness_silence : s0.wa.ram.wf = true ∧ (∀ a, s0.wa.read a = 0#16) ∧ (∀ h : RingSel, SilentRing (s0.hb.get h)) ∧
    GainsFinite s0.cur = true ∧ inUnit s0.ctl.mix = true := by
  refine ⟨rfl, fun _ => rfl, fun h => ?_, by decide +kernel, by decide +kernel⟩
  intro i hi
  exact .inl (by cases h <;> simp [s0, State.resetOf, Rings.reset, Ring.reset, Rings.get])

/-- `BlockIsItsPairsInOrder`: a block with an unpaired frame. -/
theorem witness_block : 2 * 0 + 1 < [1#32, 2#32, 3#32].length := by decide

/-- `RoundingIsToNearestEven`: a tie, the last number that stays finite, the first that does not. -/
theorem witness_rounding : 0 < 2 ∧ 2 ^ 24 * 2 + 2 < (2 ^ 277 - 2 ^ 252) * 2 ∧
    (2 ^ 277 - 2 ^ 252) * 2 - 1 < (2 ^ 277 - 2 ^ 252) * 2 ∧ (2 ^ 277 - 2 ^ 252) * 2 ≤ (2 ^ 277 - 2 ^ 252) * 2 := by
  decide +kernel

/-- `EncodingsAndValuesCorrespond`: encodings of both kinds, and the least and the greatest magnitude. -/
theorem witness_encodings : isNaN 0x7F800000#32 = false ∧ isNaN 0x7F800001#32 = true ∧ Representable 1 ∧
    Representable ((2 ^ 24 - 1) * 2 ^ 253) :=
  ⟨by decide, by decide, ⟨by decide +kernel, 1, 0, by decide +kernel, by decide +kernel⟩,
    ⟨by decide +kernel, 2 ^ 24 - 1, 253, by decide +kernel, rfl⟩⟩

/-- The Work Area invariant before a step that goes on, with `cmd_ready` 1 after it. -/
theorem witness_step_work_area : ((presenting ⟨0x22000006#32, 0#32, 0#32⟩).withWa waP1).wa.Inv ∧
    waP1.ram.wf = true ∧ ∃ t, step ((presenting ⟨0x22000006#32, 0#32, 0#32⟩).withWa waP1) = .next t ∧ t.cmdReady = true :=
  ⟨by decide +kernel, by decide, _, rfl, rfl⟩

/-- Derived presets before a step that goes on, with `cmd_ready` 1 after it. -/
theorem witness_step_coherent : Coherent (sHall.withHost [presented ⟨0x45000000#32, 0#32, 0#32⟩]) ∧
    ∃ t, step (sHall.withHost [presented ⟨0x45000000#32, 0#32, 0#32⟩]) = .next t ∧ t.cmdReady = true :=
  ⟨⟨rfl, rfl⟩, _, rfl, rfl⟩

/-- A legal `STATUS` of each cause, with legal controls, before a step that goes on with `cmd_ready` 1 after it. -/
theorem witness_step_status : StatusLegal 0#32 ∧ StatusLegal 0x11#32 ∧ StatusLegal 0x23#32 ∧ StatusLegal 0x37#32 ∧
    StatusLegal 0x4F#32 ∧ s0.ctl.Legal ∧
    ∃ t, step ((presenting ⟨0x7F000000#32, 0#32, 0#32⟩).withStatus 0x4F#32) = .next t ∧ t.cmdReady = true :=
  ⟨by decide, by decide, by decide, by decide, by decide, by decide +kernel, _, rfl, rfl⟩

/-- `ErrorBitsStaySetUntilReset`: bit 3 set, a command other than `INIT`. -/
theorem witness_error_bits : decode ⟨0x7F000000#32, 0#32, 0#32⟩ ≠ .ok .init ∧
    (∃ t, step ((presenting ⟨0x7F000000#32, 0#32, 0#32⟩).withStatus 0x4F#32) = .next t) ∧
    ((presenting ⟨0x7F000000#32, 0#32, 0#32⟩).withStatus 0x4F#32).status.getLsbD 3 = true :=
  ⟨by decide, ⟨_, rfl⟩, by decide⟩

end Sys2Proof.Tests
end

/-! ### Proofs: rounding to nearest, ties to even (00_scope.md R8)

With `u = d * 2 ^ e`, the step of the result counted in units of `1 / d`, rounding answers the multiple of the step that
`roundEven n u` counts. It is at most half a step away; two multiples are whole steps apart, so by the triangle inequality
no other multiple is nearer, and only a neighbour can be as near. -/

namespace Sys2Proof.Machine

/-! #### The distance from the exact value -/

/-- The distance in truncated differences, of which one is zero. -/
theorem distance_eq (k n d : Nat) : distance k n d = (k * d - n) + (n - k * d) := by
  unfold distance
  rw [← Nat.cast_mul]
  omega

/-- A multiple of a step lies as far away as its count, counted in steps. -/
theorem distance_mul (p c n d : Nat) : distance (p * c) n d = distance p n (d * c) := by
  rw [distance_eq, distance_eq, show p * c * d = p * (d * c) by ring]

/-- The triangle inequality for two counts of steps. -/
theorem sub_mul_le_distance_add {p q : Nat} (h : p ≤ q) (n u : Nat) :
    (q - p) * u ≤ distance p n u + distance q n u := by
  rw [distance_eq, distance_eq, Nat.sub_mul]
  have : p * u ≤ q * u := Nat.mul_le_mul_right u h
  omega

/-- Two counts are together at least one step away from anything, and at least two if they are no neighbours. -/
theorem le_distance_add_of_ne {p q : Nat} (h : p ≠ q) (n u : Nat) :
    u ≤ distance p n u + distance q n u ∧
      (p + 1 = q ∨ q + 1 = p ∨ 2 * u ≤ distance p n u + distance q n u) := by
  wlog hlt : p < q generalizing p q
  · obtain ⟨hone, htwo⟩ := this h.symm (by omega)
    omega
  have htri := sub_mul_le_distance_add hlt.le n u
  have hone : 1 * u ≤ (q - p) * u := Nat.mul_le_mul_right u (by omega)
  refine ⟨by omega, ?_⟩
  rcases Nat.lt_or_ge (q - p) 2 with hnear | hfar
  · omega
  · have htwo : 2 * u ≤ (q - p) * u := Nat.mul_le_mul_right u hfar
    omega

/-! #### The rounded quotient -/

/-- The rounded quotient is at most half a step away, and where it is exactly half a step away it is even. -/
theorem roundEven_half_step (n : Nat) {u : Nat} (hu : 0 < u) :
    2 * distance (roundEven n u) n u ≤ u ∧ (2 * distance (roundEven n u) n u = u → roundEven n u % 2 = 0) := by
  have hdiv : n / u * u + n % u = n := Nat.div_add_mod' n u
  have hmod : n % u < u := Nat.mod_lt n hu
  have hlow : distance (n / u) n u = n % u := by rw [distance_eq]; omega
  have hhigh : distance (n / u + 1) n u = u - n % u := by rw [distance_eq, Nat.add_mul]; omega
  unfold roundEven
  split
  · rw [hlow]; omega
  · split
    · rw [hhigh]; omega
    · rcases Nat.mod_two_eq_zero_or_one (n / u) with hpar | hpar
      · rw [hpar, Nat.add_zero, hlow]; omega
      · rw [hpar, hhigh]; omega

/-- No count of steps is nearer than the rounded quotient. -/
theorem distance_roundEven_le (n p : Nat) {u : Nat} (hu : 0 < u) :
    distance (roundEven n u) n u ≤ distance p n u := by
  obtain ⟨hhalf, -⟩ := roundEven_half_step n hu
  rcases eq_or_ne p (roundEven n u) with rfl | hne
  · exact le_rfl
  · obtain ⟨hone, -⟩ := le_distance_add_of_ne hne n u
    omega

/-- A count as near as the rounded quotient is its neighbour, and the rounded quotient is the even one of the two. -/
theorem roundEven_even_of_tie {n p u : Nat} (hu : 0 < u) (hne : p ≠ roundEven n u)
    (htie : distance p n u = distance (roundEven n u) n u) :
    roundEven n u % 2 = 0 ∧ (p = roundEven n u + 1 ∨ p + 1 = roundEven n u) := by
  obtain ⟨hhalf, heven⟩ := roundEven_half_step n hu
  obtain ⟨hone, htwo⟩ := le_distance_add_of_ne hne n u
  exact ⟨heven (by omega), by omega⟩

/-! #### The step of the result -/

/-- The exponent of the step by which `roundMag` rounds `n / d`. -/
def stepExp (n d : Nat) : Nat := (n / d).log2 - 23

/-- The step by which `roundMag` rounds `n / d`, in units of `1 / d`. -/
def roundStep (n d : Nat) : Nat := d * 2 ^ stepExp n d

/-- The magnitude `roundMag` answers while it is finite. -/
def roundedMag (n d : Nat) : Nat := roundEven n (roundStep n d) * 2 ^ stepExp n d

/-- What `roundMag` answers: the rounded magnitude, an infinity if it is `2 ^ 277` units or more. -/
theorem roundMag_eq (neg : Bool) (n d : Nat) :
    roundMag neg n d = if roundedMag n d < 2 ^ 277 then .num neg (roundedMag n d) else .inf neg := rfl

theorem roundStep_pos (n : Nat) {d : Nat} (hd : 0 < d) : 0 < roundStep n d := Nat.mul_pos hd (Nat.two_pow_pos _)

/-- The exact value lies below `2 ^ 24` steps. -/
theorem lt_mul_roundStep (n : Nat) {d : Nat} (hd : 0 < d) : n < 2 ^ 24 * roundStep n d := by
  have hquot : n / d < 2 ^ (24 + stepExp n d) :=
    Nat.lt_log2_self.trans_le (Nat.pow_le_pow_right (by decide) (by unfold stepExp; omega))
  calc n < 2 ^ (24 + stepExp n d) * d := (Nat.div_lt_iff_lt_mul hd).1 hquot
    _ = 2 ^ 24 * roundStep n d := by rw [roundStep, Nat.pow_add]; ring

/-- A step of more than one unit is the step of a value of `2 ^ 23` steps or more. -/
theorem mul_roundStep_le {n d : Nat} (he : stepExp n d ≠ 0) : 2 ^ 23 * roundStep n d ≤ n := by
  have hlog : 23 + stepExp n d = (n / d).log2 := by unfold stepExp at he ⊢; omega
  have hquot : n / d ≠ 0 := by
    intro hzero
    simp [stepExp, hzero] at he
  calc 2 ^ 23 * roundStep n d = 2 ^ (n / d).log2 * d := by rw [roundStep, ← hlog, Nat.pow_add]; ring
    _ ≤ n / d * d := Nat.mul_le_mul_right d (Nat.log2_self_le hquot)
    _ ≤ n := Nat.div_mul_le_self n d

/-- The rounded quotient has 24 significant bits, or is `2 ^ 24`. -/
theorem roundEven_roundStep_le (n : Nat) {d : Nat} (hd : 0 < d) : roundEven n (roundStep n d) ≤ 2 ^ 24 := by
  have hquot : n / roundStep n d < 2 ^ 24 :=
    (Nat.div_lt_iff_lt_mul (roundStep_pos n hd)).2 (lt_mul_roundStep n hd)
  rcases roundEven_eq_or n (roundStep n d) with h | h <;> omega

/-! #### The rounded magnitude among the representable ones -/

/-- The rounded magnitude is as far away as its count of steps. -/
theorem distance_roundedMag (n d : Nat) :
    distance (roundedMag n d) n d = distance (roundEven n (roundStep n d)) n (roundStep n d) := distance_mul ..

/-- A finite rounded magnitude is representable. -/
theorem representable_roundedMag {n d : Nat} (hd : 0 < d) (hlt : roundedMag n d < 2 ^ 277) :
    Representable (roundedMag n d) := by
  refine ⟨hlt, ?_⟩
  rcases Nat.lt_or_eq_of_le (roundEven_roundStep_le n hd) with hsmall | htop
  · exact ⟨_, _, hsmall, rfl⟩
  · exact ⟨1, 24 + stepExp n d, by decide, by rw [roundedMag, htop, Nat.pow_add, Nat.one_mul]⟩

/-- A representable magnitude is a multiple of the step, or lies below `2 ^ 23` steps, farther away than these. -/
theorem multiple_or_farther_of_representable {j n d : Nat} (hd : 0 < d) (hj : Representable j) :
    (∃ p, j = p * 2 ^ stepExp n d) ∨ distance (2 ^ 23) n (roundStep n d) < distance j n d := by
  obtain ⟨-, m, f, hm, rfl⟩ := hj
  rcases Nat.lt_or_ge f (stepExp n d) with hlt | hge
  · right
    have hbelow : m * 2 ^ f < 2 ^ 23 * 2 ^ stepExp n d :=
      calc m * 2 ^ f < 2 ^ 24 * 2 ^ f := Nat.mul_lt_mul_of_pos_right hm (Nat.two_pow_pos f)
        _ = 2 ^ 23 * 2 ^ (f + 1) := by ring
        _ ≤ 2 ^ 23 * 2 ^ stepExp n d := Nat.mul_le_mul_left _ (Nat.pow_le_pow_right (by decide) hlt)
    have hscaled : m * 2 ^ f * d < 2 ^ 23 * roundStep n d :=
      calc m * 2 ^ f * d < 2 ^ 23 * 2 ^ stepExp n d * d := Nat.mul_lt_mul_of_pos_right hbelow hd
        _ = 2 ^ 23 * roundStep n d := by rw [roundStep]; ring
    have hstart := mul_roundStep_le (n := n) (d := d) (by omega)
    rw [distance_eq, distance_eq]
    omega
  · left
    obtain ⟨c, rfl⟩ := Nat.exists_eq_add_of_le hge
    exact ⟨m * 2 ^ c, by ring⟩

/-- No representable magnitude is nearer than the rounded one. -/
theorem distance_roundedMag_le {j n d : Nat} (hd : 0 < d) (hj : Representable j) :
    distance (roundedMag n d) n d ≤ distance j n d := by
  rw [distance_roundedMag]
  rcases multiple_or_farther_of_representable (n := n) hd hj with ⟨p, rfl⟩ | hfar
  · rw [distance_mul]
    exact distance_roundEven_le n p (roundStep_pos n hd)
  · exact (distance_roundEven_le n _ (roundStep_pos n hd)).trans hfar.le

/-- A representable magnitude as near as the rounded one is the next multiple of the step, and the rounded one is an even
multiple. -/
theorem roundedMag_even_of_tie {j n d : Nat} (hd : 0 < d) (hj : Representable j) (hne : j ≠ roundedMag n d)
    (htie : distance j n d = distance (roundedMag n d) n d) :
    ∃ e m, roundedMag n d = 2 * m * 2 ^ e ∧ (j = (2 * m + 1) * 2 ^ e ∨ j + 2 ^ e = roundedMag n d) := by
  have hu := roundStep_pos n hd
  rw [distance_roundedMag] at htie
  rcases multiple_or_farther_of_representable (n := n) hd hj with ⟨p, rfl⟩ | hfar
  · rw [distance_mul] at htie
    have hcount : p ≠ roundEven n (roundStep n d) := fun h => hne (by rw [roundedMag, h])
    obtain ⟨heven, hnext⟩ := roundEven_even_of_tie hu hcount htie
    obtain ⟨m, hm⟩ := Nat.dvd_of_mod_eq_zero heven
    refine ⟨stepExp n d, m, by rw [roundedMag, hm], ?_⟩
    rcases hnext with habove | hbelow
    · exact .inl (by rw [habove, hm])
    · exact .inr (by rw [roundedMag, ← hbelow, Nat.succ_mul])
  · exact absurd htie (((distance_roundEven_le n _ hu).trans_lt hfar).ne')

/-! #### The overflow threshold

`2 ^ 277 - 2 ^ 252` units are half a step past the greatest number, `(2 ^ 24 - 1) * 2 ^ 253` units. -/

/-- The threshold in steps of `2 ^ 252` units: `2 ^ 277` is kept out of the arithmetic that follows. -/
theorem overflow_threshold_eq (d : Nat) : (2 ^ 277 - 2 ^ 252) * d = (2 ^ 25 - 1) * (2 ^ 252 * d) := by
  rw [show (277 : Nat) = 25 + 252 from rfl, Nat.pow_add, ← Nat.sub_one_mul, Nat.mul_assoc]

/-- The first magnitude that is an infinity, in the same steps. -/
theorem two_pow_277_mul (d : Nat) : 2 ^ 277 * d = 2 ^ 25 * (2 ^ 252 * d) := by
  rw [show (277 : Nat) = 25 + 252 from rfl, Nat.pow_add, Nat.mul_assoc]

/-- A step of more than one unit leaves at least 24 significant bits. -/
theorem le_roundEven_of_stepExp_ne {n d : Nat} (hd : 0 < d) (he : stepExp n d ≠ 0) :
    2 ^ 23 ≤ roundEven n (roundStep n d) := by
  have hquot : 2 ^ 23 ≤ n / roundStep n d := (Nat.le_div_iff_mul_le (roundStep_pos n hd)).2 (mul_roundStep_le he)
  rcases roundEven_eq_or n (roundStep n d) with h | h <;> omega

/-- Below the threshold the step is at most `2 ^ 253` units, so half a step does not reach `2 ^ 277`. -/
theorem roundedMag_lt_of_lt {n d : Nat} (hd : 0 < d) (hn : n < (2 ^ 277 - 2 ^ 252) * d) : roundedMag n d < 2 ^ 277 := by
  rw [overflow_threshold_eq] at hn
  have hexp : stepExp n d ≤ 253 := by
    by_contra hbig
    have hpow : 2 ^ 254 * d ≤ roundStep n d := by
      rw [roundStep, Nat.mul_comm]
      exact Nat.mul_le_mul_left d (Nat.pow_le_pow_right (by decide) (by omega))
    have hstart := mul_roundStep_le (n := n) (d := d) (by omega)
    omega
  have hstep : roundStep n d ≤ 2 * (2 ^ 252 * d) :=
    calc roundStep n d ≤ d * 2 ^ 253 := Nat.mul_le_mul_left d (Nat.pow_le_pow_right (by decide) hexp)
      _ = 2 * (2 ^ 252 * d) := by ring
  obtain ⟨hhalf, -⟩ := roundEven_half_step n (roundStep_pos n hd)
  rw [← distance_roundedMag, distance_eq] at hhalf
  by_contra hover
  have hscaled : 2 ^ 277 * d ≤ roundedMag n d * d := Nat.mul_le_mul_right d (Nat.not_lt.1 hover)
  rw [two_pow_277_mul] at hscaled
  omega

/-- From the threshold on the step is at least `2 ^ 253` units. -/
theorem le_stepExp_of_le {n d : Nat} (hd : 0 < d) (hn : (2 ^ 277 - 2 ^ 252) * d ≤ n) : 253 ≤ stepExp n d := by
  rw [overflow_threshold_eq] at hn
  by_contra hsmall
  have hstep : roundStep n d ≤ 2 ^ 252 * d := by
    rw [roundStep, Nat.mul_comm]
    exact Nat.mul_le_mul_right d (Nat.pow_le_pow_right (by decide) (by omega))
  have hlt := lt_mul_roundStep n hd
  omega

/-- With a step of `2 ^ 253` units the count is `2 ^ 24` from the threshold on: there the tie goes to it, the even one. -/
theorem le_roundEven_of_le {n d : Nat} (hd : 0 < d) (hn : (2 ^ 277 - 2 ^ 252) * d ≤ n) (he : stepExp n d = 253) :
    2 ^ 24 ≤ roundEven n (roundStep n d) := by
  rw [overflow_threshold_eq] at hn
  have hstep : roundStep n d = 2 * (2 ^ 252 * d) := by rw [roundStep, he]; ring
  obtain ⟨hhalf, heven⟩ := roundEven_half_step n (roundStep_pos n hd)
  by_contra hbelow
  have hcount : roundEven n (roundStep n d) * roundStep n d ≤ (2 ^ 24 - 1) * roundStep n d :=
    Nat.mul_le_mul_right _ (by omega)
  have hpos := roundStep_pos n hd
  rw [distance_eq] at hhalf heven
  have hpar := heven (by omega)
  have hcount' : roundEven n (roundStep n d) * roundStep n d ≤ (2 ^ 24 - 2) * roundStep n d :=
    Nat.mul_le_mul_right _ (by omega)
  omega

/-- From the threshold on the rounding reaches `2 ^ 277`. -/
theorem le_roundedMag_of_le {n d : Nat} (hd : 0 < d) (hn : (2 ^ 277 - 2 ^ 252) * d ≤ n) : 2 ^ 277 ≤ roundedMag n d := by
  rcases (le_stepExp_of_le hd hn).eq_or_lt with hexp | hexp
  · calc 2 ^ 277 = 2 ^ 24 * 2 ^ stepExp n d := by rw [← hexp, ← Nat.pow_add]
      _ ≤ roundedMag n d := Nat.mul_le_mul_right _ (le_roundEven_of_le hd hn hexp.symm)
  · calc 2 ^ 277 = 2 ^ 23 * 2 ^ 254 := by rw [← Nat.pow_add]
      _ ≤ 2 ^ 23 * 2 ^ stepExp n d := Nat.mul_le_mul_left _ (Nat.pow_le_pow_right (by decide) hexp)
      _ ≤ roundedMag n d := Nat.mul_le_mul_right _ (le_roundEven_of_stepExp_ne hd (by omega))

/-! #### The operations

Each clause is one branch of the operation's definition. -/

/-- Two numbers of exact sum zero, both negative, are both zero. -/
theorem eq_zero_of_signedUnits_true_add {x y : Nat} (h : signedUnits true x + signedUnits true y = 0) : x = 0 ∧ y = 0 := by
  simp only [signedUnits, if_true] at h
  omega

theorem sumIsExactThenRounded : SumIsExactThenRounded := by
  refine ⟨fun a b x y hne => if_neg hne, fun a b x y hzero => ?_, fun a b x => ⟨rfl, rfl⟩, fun a => ⟨if_pos rfl, ?_⟩,
    fun v b y => ⟨rfl, rfl⟩, fun v => ?_⟩
  · refine (if_pos hzero).trans ?_
    congr 1
    cases a <;> cases b
    · rfl
    · rfl
    · rfl
    · simp [eq_zero_of_signedUnits_true_add hzero]
  · exact if_neg (by simp)
  · simp

theorem productIsExactThenRounded : ProductIsExactThenRounded := by
  refine ⟨fun a b x y => ?_, fun a b x hx => ?_, fun a b => ?_, fun v => by simp⟩
  · simp only [fmul, Bool.bne_eq_xor]
  · simp only [fmul, if_neg hx.ne', Bool.bne_eq_xor, Bool.xor_comm b a, and_self]
  · simp only [fmul, if_true, Bool.bne_eq_xor, and_self]

theorem quotientIsExactThenRounded : QuotientIsExactThenRounded := by
  refine ⟨fun a b x y hy => ?_, fun a b x hx => ?_, fun a b x => ?_, fun v => by simp⟩
  · simp only [fdiv, if_neg hy.ne', Bool.bne_eq_xor]
  · simp only [fdiv, if_true, if_neg hx.ne', Bool.bne_eq_xor]
  · simp only [fdiv, if_true, Bool.bne_eq_xor, and_self]

theorem comparisonsAreExact : ComparisonsAreExact := by
  refine ⟨fun a b x y => ⟨decide_eq_true_iff, decide_eq_true_iff⟩, fun a b x => ⟨rfl, rfl, rfl, rfl⟩, fun a b => ?_,
    fun v => by simp⟩
  simp [flt, fle]

/-- Settles O54: the rounded magnitude is a nearest representable one, with the even count of steps on a tie, and it
overflows exactly from the threshold on; the operations are this rounding by their definitions, case by case. -/
theorem roundingIsToNearestEven : Obligations.RoundingIsToNearestEven := by
  refine ⟨fun neg n d hd => ⟨fun hn => ?_, fun hn => ?_⟩, sumIsExactThenRounded, productIsExactThenRounded,
    quotientIsExactThenRounded, comparisonsAreExact⟩
  · have hlt := roundedMag_lt_of_lt hd hn
    exact ⟨roundedMag n d, by rw [roundMag_eq, if_pos hlt], representable_roundedMag hd hlt,
      fun j hj => distance_roundedMag_le hd hj, fun j hj hne htie => roundedMag_even_of_tie hd hj hne htie⟩
  · rw [roundMag_eq, if_neg (Nat.not_lt.2 (le_roundedMag_of_le hd hn))]

end Sys2Proof.Machine

/-! ### Proofs: what a command writes (10_state.md R26)

A command that is not well-formed raises its error; for a well-formed one, an equation gives the state it goes on with. -/

namespace Sys2Proof.Machine

/-! #### The meaning of each command as one next state -/

/-- A command that is not well-formed raises its operand error (60_exceptions.md R126, R128). -/
theorem exec_of_not_wellFormed {i : Instr} (s : State) (h : i.wellFormed = false) :
    exec i s = .next (s.raise (operandError i)) := by
  cases i with
  | hbDec ch x0 x1 => exact congrArg Host.Outcome.next (hbDec_of_not_finite Config.params ch s h)
  | hbInt ch y => exact congrArg Host.Outcome.next (hbInt_of_not_finite Config.params ch s h)
  | waWr off v => exact if_neg (Bool.eq_false_iff.1 h)
  | rvTick xL xR => exact if_neg (Bool.eq_false_iff.1 h)
  | get item =>
    have hnone : readItem Config.params s item.toNat = none := by
      rw [← Option.not_isSome_iff_eq_none, readItem_isSome]
      exact Bool.eq_false_iff.1 h
    exact congrArg Host.Outcome.next (getItem_of_none hnone)
  | _ => exact absurd h (by simp [Instr.wellFormed])

/-- A well-formed `GET` writes `RES0` only (45_pipeline_and_host.md R114). -/
theorem exec_get_of_wellFormed {item : Half} (s : State) (h : (Instr.get item).wellFormed = true) :
    ∃ v, exec (.get item) s = .next (s.withRes0 v) := by
  obtain ⟨v, hv⟩ := Option.isSome_iff_exists.1 ((readItem_isSome Config.params s item).trans h)
  exact ⟨v, congrArg Host.Outcome.next (getItem_of_some hv)⟩

theorem exec_waWr_of_wellFormed {off : Half} {v : F32} (s : State) (h : (Instr.waWr off v).wellFormed = true) :
    exec (.waWr off v) s = .next (s.withWa (s.wa.wr (zextImm off) (toVal v))) := if_pos h

theorem exec_rvTick_of_wellFormed {xL xR : F32} (s : State) (h : (Instr.rvTick xL xR).wellFormed = true) :
    exec (.rvTick xL xR) s = .next (((s.withWa (tick s.cur (toVal xL) (toVal xR) s.wa).wa).withRes0Val
      (tick s.cur (toVal xL) (toVal xR) s.wa).outL).withRes1Val (tick s.cur (toVal xL) (toVal xR) s.wa).outR) :=
  if_pos h

/-- What a setter does with its operand (44_parameter_controller.md R104 to R108): a NaN leaves the state. -/
theorem exec_psDecay_eq (v : F32) (s : State) :
    exec (.psDecay v) s = .next (if isNaN v then s else (s.withCtl { s.ctl with decay := clamp01 v }).rederive) :=
  (apply_ite Host.Outcome.next ..).symm

theorem exec_psIngain_eq (v : F32) (s : State) :
    exec (.psIngain v) s = .next (if isNaN v then s else (s.withCtl { s.ctl with ingain := clamp01 v }).rederive) :=
  (apply_ite Host.Outcome.next ..).symm

theorem exec_psRevlvl_eq (v : F32) (s : State) :
    exec (.psRevlvl v) s = .next (if isNaN v then s else (s.withCtl { s.ctl with revlvl := clamp01 v }).rederive) :=
  (apply_ite Host.Outcome.next ..).symm

theorem exec_psMix_eq (v : F32) (s : State) :
    exec (.psMix v) s = .next (if isNaN v then s else s.withCtl { s.ctl with mix := clamp01 v }) :=
  (apply_ite Host.Outcome.next ..).symm

/-! #### The Work Area after a tick -/

/-- What every write and every advance of the base keep, a tick keeps: it is eight writes and one advance
(43_reverb_tick.md R98). -/
theorem tick_wa_keeps {P : WorkArea → Prop} (hwr : ∀ w o v, P w → P (WorkArea.wr w o v))
    (hadv : ∀ w n, P w → P (WorkArea.advance w n)) (c : Scaled) (xL xR : FVal) {w : WorkArea} (h : P w) :
    P (tick c xL xR w).wa :=
  hadv _ _ (hwr _ _ _ (hwr _ _ _ (hwr _ _ _ (hwr _ _ _ (hwr _ _ _ (hwr _ _ _ (hwr _ _ _ (hwr _ _ _ h))))))))

/-- A tick changes neither the size nor the mask. -/
theorem tick_wa_size_mask (c : Scaled) (xL xR : FVal) (w : WorkArea) :
    (tick c xL xR w).wa.size = w.size ∧ (tick c xL xR w).wa.mask = w.mask :=
  tick_wa_keeps (P := fun u => u.size = w.size ∧ u.mask = w.mask) (fun _ _ _ h => h) (fun _ _ h => h) c xL xR ⟨rfl, rfl⟩

/-! #### The columns of the access table -/

/-- The columns outside the command's row are kept, and so is `cmd_ready`, which no command drives. -/
def KeepsRow (i : Instr) (s t : State) : Prop := t.cmdReady = s.cmdReady ∧ ColumnsKept i s t

/-- A command that raises an error writes `STATUS` only. -/
theorem keepsRow_raise {i : Instr} (e : CmdError) (s : State) (h : i.wellFormed = false) :
    KeepsRow i s (s.raise e) := by
  simp [KeepsRow, ColumnsKept, h]

theorem keepsRow_refl (i : Instr) (s : State) : KeepsRow i s s := by
  simp [KeepsRow, ColumnsKept]

/-- Writing the decimator's ring leaves the interpolator's rings. -/
theorem Rings.put_downRing_up (b : Rings) (ch : Channel) (r : Ring) :
    (b.put (downRing ch) r).upL = b.upL ∧ (b.put (downRing ch) r).upR = b.upR := by
  cases ch <;> exact ⟨rfl, rfl⟩

/-- Writing the interpolator's ring leaves the decimator's rings. -/
theorem Rings.put_upRing_down (b : Rings) (ch : Channel) (r : Ring) :
    (b.put (upRing ch) r).downL = b.downL ∧ (b.put (upRing ch) r).downR = b.downR := by
  cases ch <;> exact ⟨rfl, rfl⟩

/-- A setter keeps its row's columns whether its operand is a NaN or not. -/
theorem keepsRow_ite {i : Instr} {s t : State} (c : Bool) (h : KeepsRow i s t) :
    KeepsRow i s (if c then s else t) := by
  cases c
  · exact h
  · exact keepsRow_refl i s

/-- A well-formed command keeps every column outside its row. -/
theorem exec_keepsRow_of_wellFormed (i : Instr) (s : State) (h : i.wellFormed = true) :
    ∃ t, exec i s = .next t ∧ KeepsRow i s t := by
  cases i with
  | nop => exact ⟨s, rfl, keepsRow_refl _ s⟩
  | init => exact ⟨_, rfl, by simp [KeepsRow, ColumnsKept, notIn, Instr.opcode, h]⟩
  | hbDec ch x0 x1 =>
    exact ⟨_, congrArg Host.Outcome.next (hbDec_of_finite Config.params ch s h),
      by simp [KeepsRow, ColumnsKept, notIn, Instr.opcode, h, Rings.put_downRing_up]⟩
  | hbInt ch y =>
    exact ⟨_, congrArg Host.Outcome.next (hbInt_of_finite Config.params ch s h),
      by simp [KeepsRow, ColumnsKept, notIn, Instr.opcode, h, Rings.put_upRing_down]⟩
  | waRd off => exact ⟨_, rfl, by simp [KeepsRow, ColumnsKept, notIn, Instr.opcode, h]⟩
  | waWr off v => exact ⟨_, exec_waWr_of_wellFormed s h, by simp [KeepsRow, ColumnsKept, notIn, Instr.opcode, h]⟩
  | waAdv n => exact ⟨_, rfl, by simp [KeepsRow, ColumnsKept, notIn, Instr.opcode, h]⟩
  | waResize bytes => exact ⟨_, rfl, by simp [KeepsRow, ColumnsKept, notIn, Instr.opcode, h]⟩
  | rvTick xL xR =>
    exact ⟨_, exec_rvTick_of_wellFormed s h,
      by simp [KeepsRow, ColumnsKept, notIn, Instr.opcode, h, tick_wa_size_mask]⟩
  | psApply idx => exact ⟨_, rfl, by simp [KeepsRow, ColumnsKept, notIn, Instr.opcode, h]⟩
  | psDecay v =>
    exact ⟨_, exec_psDecay_eq v s, keepsRow_ite _ (by simp [KeepsRow, ColumnsKept, notIn, Instr.opcode, h])⟩
  | psIngain v =>
    exact ⟨_, exec_psIngain_eq v s, keepsRow_ite _ (by simp [KeepsRow, ColumnsKept, notIn, Instr.opcode, h])⟩
  | psRevlvl v =>
    exact ⟨_, exec_psRevlvl_eq v s, keepsRow_ite _ (by simp [KeepsRow, ColumnsKept, notIn, Instr.opcode, h])⟩
  | psMix v =>
    exact ⟨_, exec_psMix_eq v s, keepsRow_ite _ (by simp [KeepsRow, ColumnsKept, notIn, Instr.opcode, h])⟩
  | psDerive => exact ⟨_, rfl, by simp [KeepsRow, ColumnsKept, notIn, Instr.opcode, h]⟩
  | get item =>
    obtain ⟨v, hv⟩ := exec_get_of_wellFormed s h
    exact ⟨_, hv, by simp [KeepsRow, ColumnsKept, notIn, Instr.opcode, h]⟩
  | getHb k slot => exact ⟨_, rfl, by simp [KeepsRow, ColumnsKept, notIn, Instr.opcode, h]⟩
  | processPair f0 f1 =>
    exact ⟨_, rfl, by simp [KeepsRow, ColumnsKept, notIn, Instr.opcode, h, processPair, tick_wa_size_mask]⟩

/-- A command goes on with a state that keeps what its row does not write. -/
theorem exec_keepsRow (i : Instr) (s : State) : ∃ t, exec i s = .next t ∧ KeepsRow i s t := by
  cases h : i.wellFormed with
  | false => exact ⟨_, exec_of_not_wellFormed s h, keepsRow_raise _ s h⟩
  | true => exact exec_keepsRow_of_wellFormed i s h

theorem keepsRow_of_exec {i : Instr} {s t : State} (h : exec i s = .next t) : KeepsRow i s t := by
  obtain ⟨u, hu, hkept⟩ := exec_keepsRow i s
  exact Host.Outcome.next.inj (hu.symm.trans h) ▸ hkept

/-- Settles O9: a malformed command writes `STATUS` only, a well-formed one its row. -/
theorem commandsWriteOnlyTheirColumns : Obligations.CommandsWriteOnlyTheirColumns := by
  intro i s
  obtain ⟨t, ht, -, hcolumns⟩ := exec_keepsRow i s
  exact ⟨t, ht, hcolumns⟩

end Sys2Proof.Machine

/-! ### Proofs: what every step keeps (10_state.md R16, R17, R20, R21, R25)

A predicate that no input sample and no interface line touches, that the reset sequence brings about and that every
command keeps, holds after every step that leaves `cmd_ready` at 1 (`KeptByCommands.step_of_ready`). What is left of each
invariant is one lemma on commands; by `KeepsRow` it looks only at the commands whose row writes what it speaks of. -/

namespace Sys2Proof.Machine

/-! #### From commands to steps -/

/-- A predicate that every served request keeps or brings about. -/
structure KeptByCommands (P : State → Prop) : Prop where
  host : ∀ (s : State) (h : List HostDrive), P s → P (s.withHost h)
  lines : ∀ (s : State) (ready valid err : Bool), P s → P (s.withLines ready valid err)
  reset : ∀ s : State, P (s.resetSequence Config.params)
  raise : ∀ (e : CmdError) (s : State), P s → P (s.raise e)
  command : ∀ (i : Instr) (s t : State), exec i s = .next t → P s → P t

section

variable {P : State → Prop} {s t : State}

/-- A step that abandons nothing keeps the predicate; where it leaves `cmd_ready` at 1, either `cmd_ready` was 1 before
or the reset sequence has run. -/
theorem KeptByCommands.step_cases (hP : KeptByCommands P) (hstep : step s = .next t) :
    (∃ rest r, t = (s.withHost rest).abandon r) ∨
      ((P s → P t) ∧ (t.cmdReady = true → s.cmdReady = true ∨ P t)) := by
  rcases Machine.step_cases s with
    ⟨-, h⟩ | ⟨d, rest, -, h | h | h | ⟨e, h⟩ | ⟨r, h⟩ | ⟨i, -, h⟩⟩ <;> rw [h] at hstep
  case inr.inr.inr.inr.inr.inr =>
    obtain ⟨hready, -⟩ := keepsRow_of_exec hstep
    exact .inr ⟨fun hs => hP.command _ _ _ hstep (hP.lines _ _ _ _ (hP.host _ _ hs)), fun ht => .inl (hready ▸ ht)⟩
  all_goals
    cases hstep
  · exact .inr ⟨hP.lines _ _ _ _, .inl⟩
  · exact .inr ⟨fun hs => hP.lines _ _ _ _ (hP.host _ _ hs), fun ht => absurd ht Bool.false_ne_true⟩
  · have hreset : P ((s.withHost rest).releaseReset Config.params) := hP.lines _ _ _ _ (hP.reset _)
    exact .inr ⟨fun _ => hreset, fun _ => .inr hreset⟩
  · exact .inr ⟨fun hs => hP.lines _ _ _ _ (hP.host _ _ hs), .inl⟩
  · exact .inr ⟨fun hs => hP.raise _ _ (hP.lines _ _ _ _ (hP.host _ _ hs)), .inl⟩
  · exact .inl ⟨_, _, rfl⟩

/-- If the predicate holds where `cmd_ready` is 1, it does so after a step: an abandoned command leaves `cmd_ready` at
0. -/
theorem KeptByCommands.step_of_ready (hP : KeptByCommands P) (hs : s.cmdReady = true → P s) (hstep : step s = .next t)
    (ht : t.cmdReady = true) : P t := by
  rcases hP.step_cases hstep with ⟨rest, r, rfl⟩ | ⟨hkeep, hready⟩
  · exact absurd ht Bool.false_ne_true
  · exact (hready ht).elim (fun h => hkeep (hs h)) id

/-- A predicate that an abandoned command keeps too holds after every step. -/
theorem KeptByCommands.step (hP : KeptByCommands P) (habandon : ∀ r s, P s → P (s.abandon r)) (hs : P s)
    (hstep : step s = .next t) : P t := by
  rcases hP.step_cases hstep with ⟨rest, r, rfl⟩ | ⟨hkeep, -⟩
  · exact habandon _ _ (hP.host _ _ hs)
  · exact hkeep hs

end

/-! #### The Work Area -/

/-- The commands that write the Work Area (10_state.md R26). -/
def waWriters : List Opcode := [.init, .waWr, .waAdv, .waResize, .rvTick, .psApply, .processPair]

theorem notIn_of_subset {i : Instr} {l l' : List Opcode} (h : notIn i l) (hsub : l' ⊆ l) : notIn i l' :=
  fun hmem => h (hsub hmem)

/-- The other commands keep the Work Area. -/
theorem KeepsRow.wa {i : Instr} {s t : State} (h : KeepsRow i s t) (hi : notIn i waWriters) : t.wa = s.wa := by
  obtain ⟨-, -, -, -, -, -, -, -, -, -, -, hram, hbase, hsize, -⟩ := h
  obtain ⟨hsize, hmask⟩ := hsize (notIn_of_subset hi (by decide))
  exact WorkArea.ext (hram (notIn_of_subset hi (by decide))) hsize hmask (hbase (notIn_of_subset hi (by decide)))

/-- What every Work Area primitive keeps, every command keeps. -/
theorem exec_wa_keeps {Q : WorkArea → Prop} (hwr : ∀ w o v, Q w → Q (WorkArea.wr w o v))
    (hadv : ∀ w n, Q w → Q (WorkArea.advance w n)) (hresized : ∀ bytes, Q (resized bytes)) {i : Instr} {s t : State}
    (h : exec i s = .next t) (hs : Q s.wa) : Q t.wa := by
  cases hw : i.wellFormed with
  | false =>
    obtain rfl := Host.Outcome.next.inj ((exec_of_not_wellFormed s hw).symm.trans h)
    exact hs
  | true =>
    cases i with
    | init =>
      cases h
      rw [State.resetSequence_wa]
      exact hresized _
    | waWr off v =>
      obtain rfl := Host.Outcome.next.inj ((exec_waWr_of_wellFormed s hw).symm.trans h)
      exact hwr _ _ _ hs
    | waAdv n =>
      cases h
      exact hadv _ _ hs
    | waResize bytes =>
      cases h
      exact hresized _
    | rvTick xL xR =>
      obtain rfl := Host.Outcome.next.inj ((exec_rvTick_of_wellFormed s hw).symm.trans h)
      exact tick_wa_keeps hwr hadv s.cur _ _ hs
    | psApply idx =>
      cases h
      rw [State.applyPreset_wa]
      exact hresized _
    | processPair f0 f1 =>
      cases h
      exact tick_wa_keeps hwr hadv s.cur _ _ hs
    | _ => exact ((keepsRow_of_exec h).wa (by simp [notIn, waWriters, Instr.opcode])).symm ▸ hs

theorem keptByCommands_wa {Q : WorkArea → Prop} (hwr : ∀ w o v, Q w → Q (WorkArea.wr w o v))
    (hadv : ∀ w n, Q w → Q (WorkArea.advance w n)) (hresized : ∀ bytes, Q (resized bytes)) :
    KeptByCommands fun s => Q s.wa where
  host _ _ h := h
  lines _ _ _ _ h := h
  reset s := by
    rw [State.resetSequence_wa]
    exact hresized _
  raise _ _ h := h
  command _ _ _ h hs := exec_wa_keeps hwr hadv hresized h hs

/-- The size of the Work Area is a power of two (41_work_area.md R73). -/
theorem sizeFor_eq_two_pow (bytes : Nat) : ∃ k, sizeFor bytes = 2 ^ k := by
  have hpow : ∃ k, nextPow2 (max ((bytes + 1) / 2) 1) = 2 ^ k := by
    unfold nextPow2
    split
    · exact ⟨0, rfl⟩
    · exact ⟨_, rfl⟩
  obtain ⟨k, hk⟩ := hpow
  rcases min_choice (2 ^ k) 65536 with h | h
  · exact ⟨k, by rw [sizeFor, hk, h]⟩
  · exact ⟨16, by rw [sizeFor, hk, h]; rfl⟩

theorem WorkArea.inv_resized (bytes : Nat) : (resized bytes).Inv := by
  obtain ⟨k, hk⟩ := sizeFor_eq_two_pow bytes
  obtain ⟨hpos, hle⟩ := sizeFor_mem bytes
  have hmask : (resized bytes).mask.toNat = sizeFor bytes - 1 := by
    rw [resized, BitVec.toNat_ofNat, Nat.mod_eq_of_lt (by omega)]
  refine ⟨?_, hle, hmask, Nat.zero_le _, rfl, fun c hc => absurd hc List.not_mem_nil⟩
  change sizeFor bytes = 2 ^ (sizeFor bytes).log2
  rw [hk, Nat.log2_two_pow]

/-- A masked address lies in the Work Area (20_memory.md R28). -/
theorem WorkArea.Inv.ea_lt_size {w : WorkArea} (h : w.Inv) (off : Int) : w.ea off < w.size := by
  obtain ⟨hpow, -, hmask, -⟩ := h
  have hpos : 0 < w.size := hpow ▸ Nat.two_pow_pos _
  have hea := w.ea_le_mask off
  omega

theorem WorkArea.Inv.wr {w : WorkArea} (h : w.Inv) (off : Int) (v : FVal) : (w.wr off v).Inv := by
  have hea := h.ea_lt_size off
  obtain ⟨hpow, hle, hmask, hbase, hwf, hcells⟩ := h
  refine ⟨hpow, hle, hmask, hbase, WorkArea.wf_wr hwf off v, fun c hc => ?_⟩
  rcases Ram.mem_write hc with rfl | hc
  · exact hea
  · exact hcells c hc

theorem WorkArea.Inv.advance {w : WorkArea} (h : w.Inv) (n : Nat) : (w.advance n).Inv := by
  obtain ⟨hpow, hle, hmask, -, hrest⟩ := h
  refine ⟨hpow, hle, hmask, ?_, hrest⟩
  rw [WorkArea.advance_base, BitVec.toNat_ofNat, Nat.mod_eq_of_lt (w.ea_lt n)]
  exact w.ea_le_mask n

/-- An abandoned command leaves the RAM in its canonical form. -/
theorem State.abandon_ram_wf (r : Touched) {s : State} (h : s.wa.ram.wf = true) : (s.abandon r).wa.ram.wf = true := by
  rw [State.abandon_wa, WorkArea.disturbed_ram]
  split
  · exact Ram.ofCells_wf _
  · exact h

/-- Settles O56: each Work Area primitive keeps the invariant, and so does every command. -/
theorem stepKeepsTheWorkAreaInvariant : Obligations.StepKeepsTheWorkAreaInvariant := by
  intro s t hwf hinv hstep
  have hram : KeptByCommands fun s => s.wa.ram.wf = true :=
    keptByCommands_wa (Q := fun w => w.ram.wf = true) (fun _ o v h => WorkArea.wf_wr h o v) (fun _ _ h => h) resized_wf
  have harea : KeptByCommands fun s => s.wa.Inv :=
    keptByCommands_wa (Q := WorkArea.Inv) (fun _ o v h => h.wr o v) (fun _ n h => h.advance n) WorkArea.inv_resized
  exact ⟨hram.step (fun r _ => State.abandon_ram_wf r) hwf hstep, harea.step_of_ready hinv hstep⟩

/-! #### `BASE` and `CUR` -/

/-- The commands that write the controls, `BASE` or `CUR` (10_state.md R26). -/
def presetWriters : List Opcode := [.init, .psApply, .psDecay, .psIngain, .psRevlvl, .psMix, .psDerive]

/-- The other commands keep the controls, `BASE` and `CUR`. -/
theorem KeepsRow.presets {i : Instr} {s t : State} (h : KeepsRow i s t) (hi : notIn i presetWriters) :
    t.ctl = s.ctl ∧ t.base = s.base ∧ t.cur = s.cur := by
  obtain ⟨-, hctl, hbase, -, -, -, -, hcur, -⟩ := h
  exact ⟨hctl (notIn_of_subset hi (by decide)), (hbase (notIn_of_subset hi (by decide))).1,
    hcur (notIn_of_subset hi (by decide))⟩

/-- `Coherent` looks at the controls, `BASE` and `CUR` only. -/
theorem Coherent.congr {s t : State} (hs : Coherent s) (h : t.ctl = s.ctl ∧ t.base = s.base ∧ t.cur = s.cur) :
    Coherent t := by
  obtain ⟨hctl, hbase, hcur⟩ := h
  unfold Coherent
  rw [hctl, hbase, hcur]
  exact hs

theorem coherent_resetSequence (s : State) : Coherent (s.resetSequence Config.params) := by
  rw [State.resetSequence_eq]
  exact ⟨rfl, rfl⟩

/-- Deriving `CUR` makes a state coherent whose `BASE` is the scaled preset (10_state.md R21). -/
theorem coherent_rederive {s : State} (h : s.base = scale (Config.params.preset s.ctl.presetIdx)) :
    Coherent s.rederive := ⟨h, rfl⟩

/-- A command keeps `BASE` scaled and `CUR` derived: the writers of `BASE` or of a control `CUR` depends on derive `CUR`
again, and `CUR` does not depend on the mix (42_preset_scaler.md R83). -/
theorem exec_coherent {i : Instr} {s t : State} (h : exec i s = .next t) (hs : Coherent s) : Coherent t := by
  have hbase : s.base = scale (Config.params.preset s.ctl.presetIdx) := hs.1
  cases i with
  | init =>
    cases h
    exact coherent_resetSequence s
  | psApply idx =>
    cases h
    exact coherent_rederive rfl
  | psDecay v =>
    obtain rfl := Host.Outcome.next.inj ((exec_psDecay_eq v s).symm.trans h)
    split
    · exact hs
    · exact coherent_rederive hbase
  | psIngain v =>
    obtain rfl := Host.Outcome.next.inj ((exec_psIngain_eq v s).symm.trans h)
    split
    · exact hs
    · exact coherent_rederive hbase
  | psRevlvl v =>
    obtain rfl := Host.Outcome.next.inj ((exec_psRevlvl_eq v s).symm.trans h)
    split
    · exact hs
    · exact coherent_rederive hbase
  | psMix v =>
    obtain rfl := Host.Outcome.next.inj ((exec_psMix_eq v s).symm.trans h)
    split
    · exact hs
    · exact hs
  | psDerive =>
    cases h
    exact coherent_rederive hbase
  | _ => exact hs.congr ((keepsRow_of_exec h).presets (by simp [notIn, presetWriters, Instr.opcode]))

theorem keptByCommands_coherent : KeptByCommands Coherent where
  host _ _ h := h
  lines _ _ _ _ h := h
  reset := coherent_resetSequence
  raise _ _ h := h
  command _ _ _ := exec_coherent

/-- Settles O57: every command keeps `BASE` scaled and `CUR` derived. -/
theorem stepKeepsBaseAndCurDerived : Obligations.StepKeepsBaseAndCurDerived := by
  intro s t hs hstep
  exact keptByCommands_coherent.step_of_ready hs hstep

/-! #### `STATUS` -/

/-- What raising an error and a cleared `STATUS` keep, every command keeps (60_exceptions.md R128). -/
theorem exec_status_keeps {Q : Word → Prop} (hraise : ∀ e v, Q v → Q (statusAfter e v)) (hzero : Q 0#32) {i : Instr}
    {s t : State} (h : exec i s = .next t) (hs : Q s.status) : Q t.status := by
  cases hw : i.wellFormed with
  | false =>
    obtain rfl := Host.Outcome.next.inj ((exec_of_not_wellFormed s hw).symm.trans h)
    exact hraise _ _ hs
  | true =>
    by_cases hinit : i = .init
    · subst hinit
      cases h
      rw [State.resetSequence_status]
      exact hzero
    · obtain ⟨-, -, -, -, -, -, -, -, -, -, -, -, -, -, -, -, hstatus, -⟩ := keepsRow_of_exec h
      exact (hstatus hw hinit).symm ▸ hs

theorem keptByCommands_status {Q : Word → Prop} (hraise : ∀ e v, Q v → Q (statusAfter e v)) (hzero : Q 0#32) :
    KeptByCommands fun s => Q s.status where
  host _ _ h := h
  lines _ _ _ _ h := h
  reset s := by
    rw [State.resetSequence_status]
    exact hzero
  raise _ _ h := hraise _ _ h
  command _ _ _ h hs := exec_status_keeps hraise hzero h hs

/-- An error sets its own sticky bit (60_exceptions.md R128). -/
theorem statusAfter_errorBit (e : CmdError) (v : Word) : (statusAfter e v).getLsbD (errorBit e) = true := by
  rw [statusAfter_getLsbD e v (by cases e <;> decide)]
  cases e <;> simp [errorBit, causeBit]

/-- An error leaves the bits above `LAST_CAUSE`. -/
theorem statusAfter_upper (e : CmdError) (v : Word) :
    (statusAfter e v).extractLsb' 8 24 = v.extractLsb' 8 24 := by
  ext j hj
  rw [BitVec.getElem_extractLsb', BitVec.getElem_extractLsb', statusAfter_getLsbD e v (by omega)]
  have hbit : (causeBit e).getLsbD (8 + j) = false := by
    cases e <;> interval_cases j <;> rfl
  rw [hbit, Bool.or_false]

/-- After an error `LAST_CAUSE` is its code and its bit is set. -/
theorem statusLegal_statusAfter (e : CmdError) {v : Word} (h : StatusLegal v) : StatusLegal (statusAfter e v) := by
  obtain ⟨hupper, -⟩ := h
  refine ⟨(statusAfter_upper e v).trans hupper, .inr ?_⟩
  have hbit := statusAfter_errorBit e v
  rw [lastCause_statusAfter]
  cases e with
  | illOpc => exact .inl ⟨rfl, hbit⟩
  | rsv => exact .inr (.inl ⟨rfl, hbit⟩)
  | badItem => exact .inr (.inr (.inl ⟨rfl, hbit⟩))
  | nonfinite => exact .inr (.inr (.inr ⟨rfl, hbit⟩))

/-- An abandoned command leaves the bits above `LAST_CAUSE` zero (log 10). -/
theorem State.abandon_status_upper (r : Touched) {s : State} (h : s.status.extractLsb' 8 24 = 0#24) :
    (s.abandon r).status.extractLsb' 8 24 = 0#24 := by
  rw [State.abandon_status]
  split
  · ext j hj
    simp
  · exact h

/-! #### The controls -/

/-- Only a NaN encoding has the value NaN. -/
theorem toVal_ne_nan {v : F32} (h : isNaN v = false) : toVal v ≠ .nan := by
  simp only [isNaN, Bool.and_eq_false_iff, beq_eq_false_iff_ne, bne_eq_false_iff_eq] at h
  unfold toVal
  split
  · rw [if_pos (h.resolve_left (not_not_intro ‹_›))]
    exact FVal.noConfusion
  · split <;> exact FVal.noConfusion

/-- What a setter stores is a legal control value (44_parameter_controller.md R104). -/
theorem inUnit_clamp01 {v : F32} (h : isNaN v = false) : inUnit (clamp01 v) = true := by
  have hnan := toVal_ne_nan h
  unfold clamp01 clampBits
  split
  · decide +kernel
  · split
    · decide +kernel
    · rename_i hlow hhigh
      have hzero : fle fzero (toVal v) = true :=
        fle_of_not_flt hnan (by decide +kernel) (Bool.eq_false_iff.2 hlow)
      have hone : fle (toVal v) fOne = true :=
        fle_of_not_flt (by decide +kernel) hnan (Bool.eq_false_iff.2 hhigh)
      rw [inUnit, hzero, hone]
      rfl

theorem controls_reset_legal : Controls.reset.Legal := by decide +kernel

/-- A command keeps the controls legal: a setter stores a clamped value. -/
theorem exec_controls_legal {i : Instr} {s t : State} (h : exec i s = .next t) (hs : s.ctl.Legal) : t.ctl.Legal := by
  have hall := hs
  obtain ⟨hdecay, hmix, hingain, hrevlvl⟩ := hs
  cases i with
  | init =>
    cases h
    rw [State.resetSequence_ctl]
    exact controls_reset_legal
  | psApply idx =>
    cases h
    rw [State.applyPreset_ctl]
    exact hall
  | psDecay v =>
    obtain rfl := Host.Outcome.next.inj ((exec_psDecay_eq v s).symm.trans h)
    split
    · exact hall
    · exact ⟨inUnit_clamp01 (Bool.eq_false_iff.2 ‹_›), hmix, hingain, hrevlvl⟩
  | psIngain v =>
    obtain rfl := Host.Outcome.next.inj ((exec_psIngain_eq v s).symm.trans h)
    split
    · exact hall
    · exact ⟨hdecay, hmix, inUnit_clamp01 (Bool.eq_false_iff.2 ‹_›), hrevlvl⟩
  | psRevlvl v =>
    obtain rfl := Host.Outcome.next.inj ((exec_psRevlvl_eq v s).symm.trans h)
    split
    · exact hall
    · exact ⟨hdecay, hmix, hingain, inUnit_clamp01 (Bool.eq_false_iff.2 ‹_›)⟩
  | psMix v =>
    obtain rfl := Host.Outcome.next.inj ((exec_psMix_eq v s).symm.trans h)
    split
    · exact hall
    · exact ⟨hdecay, inUnit_clamp01 (Bool.eq_false_iff.2 ‹_›), hingain, hrevlvl⟩
  | psDerive =>
    cases h
    exact hall
  | _ =>
    obtain ⟨hctl, -⟩ := (keepsRow_of_exec h).presets (by simp [notIn, presetWriters, Instr.opcode])
    exact hctl.symm ▸ hall

theorem keptByCommands_legal : KeptByCommands fun s => s.ctl.Legal where
  host _ _ h := h
  lines _ _ _ _ h := h
  reset s := by
    rw [State.resetSequence_ctl]
    exact controls_reset_legal
  raise _ _ h := h
  command _ _ _ := exec_controls_legal

/-- Settles O58: an error leaves `STATUS` well-formed, and what a setter stores is clamped. -/
theorem stepKeepsStatusAndControlsLegal : Obligations.StepKeepsStatusAndControlsLegal := by
  intro s t hupper hs hstep
  have hkeptUpper : KeptByCommands fun s => s.status.extractLsb' 8 24 = 0#24 :=
    keptByCommands_status (Q := fun v => v.extractLsb' 8 24 = 0#24) (fun e v => (statusAfter_upper e v).trans) rfl
  have hkeptStatus : KeptByCommands fun s => StatusLegal s.status :=
    keptByCommands_status (Q := StatusLegal) (fun e _ => statusLegal_statusAfter e) (by decide)
  exact ⟨hkeptUpper.step (fun r _ => State.abandon_status_upper r) hupper hstep, fun ht =>
    ⟨hkeptStatus.step_of_ready (fun h => (hs h).1) hstep ht,
      keptByCommands_legal.step_of_ready (fun h => (hs h).2) hstep ht⟩⟩

end Sys2Proof.Machine

/-! ### Proofs: the ranges of the gains (10_state.md R22)

A gain is computed as a value and then encoded. The encoding loses nothing, since a product is a number binary32 can hold
(`toVal_pack_fmul`). The bounds go through each operation: rounding never crosses a number that binary32 can hold
(`between_roundMag`), and every bound needed here is such a number. -/

namespace Sys2Proof.Machine

/-! #### Encodings of numbers -/

/-- The word put together from a sign, a biased exponent and a fraction (30_encoding.md R52). -/
def fieldsWord (neg : Bool) (e f : Nat) : F32 := BitVec.ofNat 32 (2 ^ 31 * neg.toNat + (e * 2 ^ 23 + f))

section

variable (neg : Bool) {e f : Nat} (he : e < 256) (hf : f < 2 ^ 23)
include he hf

theorem fieldsWord_toNat : (fieldsWord neg e f).toNat = 2 ^ 31 * neg.toNat + (e * 2 ^ 23 + f) := by
  have hneg : neg.toNat ≤ 1 := Bool.toNat_le neg
  rw [fieldsWord, BitVec.toNat_ofNat]
  exact Nat.mod_eq_of_lt (by omega)

theorem expField_fieldsWord : (expField (fieldsWord neg e f)).toNat = e := by
  rw [expField, BitVec.extractLsb'_toNat, fieldsWord_toNat neg he hf, Nat.shiftRight_eq_div_pow]
  omega

theorem fracField_fieldsWord : (fracField (fieldsWord neg e f)).toNat = f := by
  rw [fracField, BitVec.extractLsb'_toNat, fieldsWord_toNat neg he hf, Nat.shiftRight_zero]
  omega

theorem msb_fieldsWord : (fieldsWord neg e f).msb = neg := by
  rw [BitVec.msb_eq_decide, fieldsWord_toNat neg he hf]
  cases neg
  · exact decide_eq_false (by rw [Bool.toNat_false]; omega)
  · exact decide_eq_true (by rw [Bool.toNat_true]; omega)

/-- The value of the word whose exponent field is `e`, subnormal where it is 0. -/
theorem toVal_fieldsWord : toVal (fieldsWord neg e f) =
    if e = 255 then if f = 0 then .inf neg else .nan
    else if e = 0 then .num neg f else .num neg ((2 ^ 23 + f) * 2 ^ (e - 1)) := by
  simp only [toVal, ← BitVec.toNat_inj, expField_fieldsWord neg he hf, fracField_fieldsWord neg he hf,
    msb_fieldsWord neg he hf, BitVec.toNat_ofNat, Nat.zero_mod, Nat.reducePow, Nat.reduceMod]

end

/-- A number is subnormal, or 24 significant bits times a power of two. -/
theorem Representable.small_or_normal {k : Nat} (hk : Representable k) :
    k < 2 ^ 23 ∨ ∃ c x, 2 ^ 23 ≤ c ∧ c < 2 ^ 24 ∧ x < 254 ∧ k.log2 - 23 = x ∧ k = c * 2 ^ x := by
  obtain ⟨hlt, m, e, hm, rfl⟩ := hk
  rw [or_iff_not_imp_left]
  intro hlarge
  have hne : m * 2 ^ e ≠ 0 := by omega
  have hhigh := (Nat.log2_lt hne).2 hlt
  have hlow : 23 ≤ (m * 2 ^ e).log2 := (Nat.le_log2 hne).2 (Nat.not_lt.1 hlarge)
  obtain ⟨x, hx⟩ := Nat.exists_eq_add_of_le' hlow
  have hexp : (m * 2 ^ e).log2 < 24 + e := by
    rw [Nat.log2_lt hne, Nat.pow_add]
    exact Nat.mul_lt_mul_of_pos_right hm (Nat.two_pow_pos e)
  obtain ⟨c, hc⟩ : 2 ^ x ∣ m * 2 ^ e := (Nat.pow_dvd_pow 2 (by omega)).mul_left m
  have hfrom : 2 ^ x * 2 ^ 23 ≤ 2 ^ x * c := by
    rw [← hc, ← Nat.pow_add, ← hx]
    exact Nat.log2_self_le hne
  have hto : 2 ^ x * c < 2 ^ x * 2 ^ 24 := by
    rw [← hc, ← Nat.pow_add, show x + 24 = (m * 2 ^ e).log2 + 1 by omega]
    exact Nat.lt_log2_self
  exact ⟨c, x, Nat.le_of_mul_le_mul_left hfrom (Nat.two_pow_pos x), Nat.lt_of_mul_lt_mul_left hto, by omega, by omega,
    hc.trans (Nat.mul_comm _ _)⟩

/-- The fields of the encoding of a number. -/
theorem pack_num (neg : Bool) (k : Nat) : pack (.num neg k) = BitVec.ofNat 32 (2 ^ 31 * neg.toNat + magBits k) := (rfl)

/-- The encoding of a number binary32 can hold has its value. -/
theorem toVal_pack_num (neg : Bool) {k : Nat} (hk : Representable k) : toVal (pack (.num neg k)) = .num neg k := by
  rcases hk.small_or_normal with hsmall | ⟨c, x, hcLow, hcHigh, hx, hlog, rfl⟩
  · have hword : pack (.num neg k) = fieldsWord neg 0 k := by
      rw [pack_num, magBits, if_pos hsmall, fieldsWord, Nat.zero_mul, Nat.zero_add]
    rw [hword, toVal_fieldsWord neg (by decide) hsmall, if_neg (by decide), if_pos rfl]
  · have hlarge : ¬c * 2 ^ x < 2 ^ 23 := Nat.not_lt.2 (hcLow.trans (Nat.le_mul_of_pos_right c (Nat.two_pow_pos x)))
    have hword : pack (.num neg (c * 2 ^ x)) = fieldsWord neg (x + 1) (c - 2 ^ 23) := by
      simp only [pack_num, magBits, if_neg hlarge, hlog, Nat.mul_div_cancel c (Nat.two_pow_pos x), fieldsWord]
    rw [hword, toVal_fieldsWord neg (by omega) (by omega), if_neg (by omega), if_neg (by omega),
      Nat.add_sub_cancel' hcLow, Nat.add_sub_cancel]

theorem toVal_pack_inf (neg : Bool) : toVal (pack (.inf neg)) = .inf neg := by
  cases neg <;> decide +kernel

/-- The encoding of a rounded number loses nothing. -/
theorem toVal_pack_roundMag (neg : Bool) (n : Nat) {d : Nat} (hd : 0 < d) :
    toVal (pack (roundMag neg n d)) = roundMag neg n d := by
  rw [roundMag_eq]
  split
  · exact toVal_pack_num neg (representable_roundedMag hd ‹_›)
  · exact toVal_pack_inf neg

/-- What a clamp answers is encoded without loss if the value and the bounds are. -/
theorem toVal_pack_fclamp {v lo hi : FVal} (hv : toVal (pack v) = v) (hlo : toVal (pack lo) = lo)
    (hhi : toVal (pack hi) = hi) : toVal (pack (fclamp v lo hi)) = fclamp v lo hi := by
  rcases fclamp_eq_or v lo hi with ⟨-, h⟩ | ⟨-, -, h⟩ | ⟨-, -, h⟩ <;> rw [h] <;> assumption

/-! #### Bounds through the operations -/

/-- A number from `-l` to `h` units. -/
def Between (l h : Nat) (v : FVal) : Prop :=
  ∃ neg k, v = .num neg k ∧ -(l : Int) ≤ units neg k ∧ units neg k ≤ h

theorem between_num_false (k : Nat) : Between 0 k (.num false k) :=
  ⟨false, k, rfl, by simp, by simp⟩

theorem Between.ne_nan {l h : Nat} {v : FVal} (hv : Between l h v) : v ≠ .nan := by
  obtain ⟨neg, k, rfl, -⟩ := hv
  exact FVal.noConfusion

/-- A value between two numbers by the comparisons is a number between them. -/
theorem between_of_fle {l h : Nat} {v : FVal} (hl : fle (.num true l) v = true) (hh : fle v (.num false h) = true) :
    Between l h v := by
  cases v with
  | num neg k => exact ⟨neg, k, rfl, of_decide_eq_true hl, of_decide_eq_true hh⟩
  | inf neg =>
    cases neg
    · exact absurd hh Bool.false_ne_true
    · exact absurd hl Bool.false_ne_true
  | nan => exact absurd hl Bool.false_ne_true

/-- Rounding never crosses a number that binary32 can hold. -/
theorem roundedMag_le {n d k : Nat} (hd : 0 < d) (hk : Representable k) (h : n ≤ k * d) : roundedMag n d ≤ k := by
  by_contra hlt
  have hnear := distance_roundedMag_le (n := n) hd hk
  have hstep : (k + 1) * d ≤ roundedMag n d * d := Nat.mul_le_mul_right d (Nat.not_le.1 hlt)
  rw [distance_eq, distance_eq] at hnear
  rw [Nat.add_mul] at hstep
  omega

theorem between_roundMag {l h n d : Nat} {neg : Bool} (hl : Representable l) (hh : Representable h) (hd : 0 < d)
    (hlow : -((l * d : Nat) : Int) ≤ units neg n) (hhigh : units neg n ≤ (h * d : Nat)) :
    Between l h (roundMag neg n d) := by
  cases neg with
  | false =>
    have hle : roundedMag n d ≤ h := roundedMag_le hd hh (by rw [units_false] at hhigh; omega)
    rw [roundMag_eq, if_pos (hle.trans_lt hh.1)]
    exact ⟨_, _, rfl, by rw [units_false]; omega, by rw [units_false]; omega⟩
  | true =>
    have hle : roundedMag n d ≤ l := roundedMag_le hd hl (by rw [units_true] at hlow; omega)
    rw [roundMag_eq, if_pos (hle.trans_lt hl.1)]
    exact ⟨_, _, rfl, by rw [units_true]; omega, by rw [units_true]; omega⟩

theorem units_xor_mul (a b : Bool) (x y : Nat) : units (a ^^ b) (x * y) = units a x * units b y := by
  cases a <;> cases b <;> simp

/-- The sign and the magnitude of an integer give it back. -/
theorem units_natAbs (z : Int) : units (decide (z < 0)) z.natAbs = z := by
  by_cases h : z < 0
  · rw [decide_eq_true h, units_true]
    omega
  · rw [decide_eq_false h, units_false]
    omega

theorem Between.fneg {l h : Nat} {v : FVal} (hv : Between l h v) : Between h l (fneg v) := by
  obtain ⟨neg, k, rfl, hlow, hhigh⟩ := hv
  refine ⟨!neg, k, rfl, ?_⟩
  cases neg <;> simp only [Bool.not_true, Bool.not_false, units_true, units_false] at * <;> omega

theorem fmul_num (a b : Bool) (x y : Nat) :
    fmul (.num a x) (.num b y) = roundMag (a ^^ b) (x * y) (2 ^ 149) := by simp only [fmul]

/-- A product lies between the products of the bounds. -/
theorem mul_bounds {a b c d l h : Nat} {X Y : Int} (haX : -(a : Int) ≤ X) (hXb : X ≤ b) (hcY : -(c : Int) ≤ Y)
    (hYd : Y ≤ d) (hlow : max (a * d) (b * c) ≤ l) (hhigh : max (b * d) (a * c) ≤ h) :
    -(l : Int) ≤ X * Y ∧ X * Y ≤ h := by
  obtain ⟨had, hbc⟩ := max_le_iff.1 hlow
  obtain ⟨hbd, hac⟩ := max_le_iff.1 hhigh
  zify at had hbc hbd hac
  have hc : (0 : Int) ≤ c := Int.natCast_nonneg c
  have hd : (0 : Int) ≤ d := Int.natCast_nonneg d
  rcases le_total 0 X with hX | hX
  · have hXY := mul_le_mul_of_nonneg_left hYd hX
    have hYX := mul_le_mul_of_nonneg_left hcY hX
    have hXd := mul_le_mul_of_nonneg_right hXb hd
    have hXc := mul_le_mul_of_nonneg_right hXb hc
    constructor <;> linarith
  · have hXY := mul_le_mul_of_nonpos_left hYd hX
    have hYX := mul_le_mul_of_nonpos_left hcY hX
    have hXd := mul_le_mul_of_nonneg_right haX hd
    have hXc := mul_le_mul_of_nonneg_right haX hc
    constructor <;> linarith

section

variable {a b c d l h : Nat} {x y : FVal} (hl : Representable l) (hh : Representable h)
include hl hh

theorem Between.fadd (hx : Between a b x) (hy : Between c d y) (hlow : a + c ≤ l) (hhigh : b + d ≤ h) :
    Between l h (fadd x y) := by
  obtain ⟨p, i, rfl, hxl, hxh⟩ := hx
  obtain ⟨q, j, rfl, hyl, hyh⟩ := hy
  simp only [Machine.fadd]
  split
  · exact ⟨_, 0, rfl, by cases p && q <;> simp, by cases p && q <;> simp⟩
  · refine between_roundMag hl hh Nat.one_pos ?_ ?_ <;> rw [units_natAbs, Nat.mul_one] <;> omega

theorem Between.fsub (hx : Between a b x) (hy : Between c d y) (hlow : a + d ≤ l) (hhigh : b + c ≤ h) :
    Between l h (fsub x y) :=
  Between.fadd hl hh hx hy.fneg hlow hhigh

theorem Between.fmul (hx : Between a b x) (hy : Between c d y) (hlow : max (a * d) (b * c) ≤ l * 2 ^ 149)
    (hhigh : max (b * d) (a * c) ≤ h * 2 ^ 149) : Between l h (fmul x y) := by
  obtain ⟨p, i, rfl, hxl, hxh⟩ := hx
  obtain ⟨q, j, rfl, hyl, hyh⟩ := hy
  have hbounds := mul_bounds hxl hxh hyl hyh hlow hhigh
  rw [← units_xor_mul] at hbounds
  rw [fmul_num]
  exact between_roundMag hl hh (Nat.two_pow_pos 149) hbounds.1 hbounds.2

end
/-- A product of two numbers is encoded without loss. -/
theorem toVal_pack_fmul {a b c d : Nat} {x y : FVal} (hx : Between a b x) (hy : Between c d y) :
    toVal (pack (fmul x y)) = fmul x y := by
  obtain ⟨p, i, rfl, -⟩ := hx
  obtain ⟨q, j, rfl, -⟩ := hy
  rw [fmul_num]
  exact toVal_pack_roundMag _ _ (Nat.two_pow_pos 149)

theorem roundMag_ne_nan (neg : Bool) (n d : Nat) : roundMag neg n d ≠ .nan := by
  rcases roundMag_cases neg n d with ⟨k, h⟩ | h <;> rw [h] <;> exact FVal.noConfusion

/-- A product of two numbers is no NaN. -/
theorem fmul_ne_nan {a b c d : Nat} {x y : FVal} (hx : Between a b x) (hy : Between c d y) : fmul x y ≠ .nan := by
  obtain ⟨p, i, rfl, -⟩ := hx
  obtain ⟨q, j, rfl, -⟩ := hy
  rw [fmul_num]
  exact roundMag_ne_nan _ _ _

theorem fle_self {x : FVal} (h : x ≠ .nan) : fle x x = true := by
  rcases x with ⟨a, k⟩ | ⟨_ | _⟩ | _
  · exact decide_eq_true le_rfl
  · rfl
  · rfl
  · exact absurd rfl h

/-- A clamped value lies between the bounds, unless it is a NaN (00_scope.md R10). -/
theorem fclamp_mem {v lo hi : FVal} (hv : v ≠ .nan) (hlo : lo ≠ .nan) (hhi : hi ≠ .nan) (hle : fle lo hi = true) :
    fle lo (fclamp v lo hi) = true ∧ fle (fclamp v lo hi) hi = true := by
  rcases fclamp_eq_or v lo hi with ⟨-, h⟩ | ⟨-, -, h⟩ | ⟨hlow, hhigh, h⟩ <;> rw [h]
  · exact ⟨fle_self hlo, hle⟩
  · exact ⟨hle, fle_self hhi⟩
  · exact ⟨fle_of_not_flt hv hlo hlow, fle_of_not_flt hhi hv hhigh⟩

theorem inRange_of_between {l h k : Nat} {w : F32} (hw : Between l h (toVal w)) (hlt : h < k) (hle : l ≤ k) :
    InRange (.num true k) (.num false k) w := by
  obtain ⟨neg, m, heq, hlow, hhigh⟩ := hw
  unfold InRange
  rw [heq]
  exact ⟨decide_eq_true (by rw [units_true]; omega), decide_eq_true (by rw [units_false]; omega)⟩

/-- A legal control value is a number from 0 to 1. -/
theorem between_of_inUnit {v : F32} (h : inUnit v = true) : Between 0 (2 ^ 149) (toVal v) := by
  obtain ⟨hzero, hone⟩ := (Bool.and_eq_true _ _).mp h
  have hlow : fle (.num true 0) fzero = true := by decide
  have hhigh : fle fOne (.num false (2 ^ 149)) = true := by decide +kernel
  exact between_of_fle (fle_trans hlow hzero) (fle_trans hone hhigh)

/-! #### The gains of `BASE` -/

theorem natAbs_toInt_le (q : Half) : q.toInt.natAbs ≤ 2 ^ 15 := by
  have hlow := BitVec.le_toInt q
  have hhigh := BitVec.toInt_lt (x := q)
  omega

/-- A raw gain over 32768 is exact (42_preset_scaler.md R82). -/
theorem scaled16_eq (q : Half) : scaled16 q = exact16 q := by
  have hq := natAbs_toInt_le q
  have hdivisor : f32768 = .num false (2 ^ 164) := by decide +kernel
  have hexact : q.toInt.natAbs * 2 ^ 149 * 2 ^ 149 = q.toInt.natAbs * 2 ^ 134 * 2 ^ 164 := by ring
  rw [scaled16, hdivisor, ofInt, exact16]
  simp only [fdiv, if_neg (Nat.two_pow_pos 164).ne', Bool.xor_false]
  rw [hexact]
  exact roundMag_exact _ _ _ (Nat.two_pow_pos 164) (by omega)
    ((Nat.mul_le_mul_right _ hq).trans_lt (by decide +kernel))

theorem representable_exact16 (q : Half) : Representable (q.toInt.natAbs * 2 ^ 134) := by
  have hq := natAbs_toInt_le q
  exact ⟨(Nat.mul_le_mul_right _ hq).trans_lt (by decide +kernel), _, 134, by omega, rfl⟩

theorem toVal_gainOf (q : Half) : toVal (gainOf q) = exact16 q := by
  rw [gainOf, scaled16_eq]
  exact toVal_pack_num _ (representable_exact16 q)

/-- A scaled gain lies from -1 to the number below 1 by 2^-15. -/
theorem between_gainOf (q : Half) : Between (2 ^ 149) (32767 * 2 ^ 134) (toVal (gainOf q)) := by
  have hlow := BitVec.le_toInt q
  have hhigh := BitVec.toInt_lt (x := q)
  rw [toVal_gainOf]
  refine ⟨_, _, rfl, ?_⟩
  by_cases h : q.toInt < 0
  · rw [decide_eq_true h, units_true]
    omega
  · rw [decide_eq_false h, units_false]
    omega

/-- Every gain of a scaled preset is a scaled raw gain. -/
theorem exists_gainOf_of_mem {p : RawPreset} {g : F32} (h : g ∈ allGains (scale p)) : ∃ q, g = gainOf q := by
  have hmap : allGains (scale p) = [p.vIIR, p.vCOMB1, p.vCOMB2, p.vCOMB3, p.vCOMB4, p.vAPF1, p.vAPF2, p.vWALL, p.vLIN,
    p.vRIN, p.vLOUT, p.vROUT].map gainOf := by
    simp only [allGains, plainGains, scale, List.map, List.cons_append, List.nil_append]
  obtain ⟨q, -, hq⟩ := List.mem_map.1 (hmap ▸ h)
  exact ⟨q, hq.symm⟩

/-! #### The gains `Derive` computes -/

/-- The maximum scale of a number is from 0 to 10: the clamp catches the division by zero (92_eei_decisions.md D29). -/
theorem between_maxScale {l h : Nat} {w : FVal} (hw : Between l h w) : Between 0 (10 * 2 ^ 149) (maxScale w) := by
  have hquot : fdiv f099 (fabs w) ≠ .nan := by
    obtain ⟨neg, k, rfl, -⟩ := hw
    have hnum : f099 = .num false (16609444 * 2 ^ 125) := by decide +kernel
    rw [hnum]
    simp only [fabs, fdiv]
    split
    · rw [if_neg (by decide)]
      exact FVal.noConfusion
    · exact roundMag_ne_nan _ _ _
  obtain ⟨hlow, hhigh⟩ := fclamp_mem hquot (lo := fHalf) (hi := fTen) (by decide +kernel) (by decide +kernel)
    (by decide +kernel)
  have hzero : fle (.num true 0) fHalf = true := by decide +kernel
  have hten : fle fTen (.num false (10 * 2 ^ 149)) = true := by decide +kernel
  exact between_of_fle (fle_trans hzero hlow) (fle_trans hhigh hten)

/-- The decay scale of a legal decay is a number: `d - 0.5` is at most 1 in magnitude, the maximum scale less one at
most 10. -/
theorem between_decayScale {l h : Nat} {d w : FVal} (hd : Between 0 (2 ^ 149) d) (hw : Between l h w) :
    Between (21 * 2 ^ 149) (21 * 2 ^ 149) (decayScale d w) := by
  have hrep (n : Nat) (hn : n ≤ 21) : Representable (n * 2 ^ 149) :=
    ⟨(Nat.mul_le_mul_right _ hn).trans_lt (by decide +kernel), n, 149, by omega, rfl⟩
  have hhalf : Between 0 (2 ^ 148) fHalf := ⟨false, _, by decide +kernel, by decide, le_rfl⟩
  have hone : Between 0 (2 ^ 149) fOne := ⟨false, _, by decide +kernel, by decide, le_rfl⟩
  have htwo : Between 0 (2 ^ 150) fTwo := ⟨false, _, by decide +kernel, by decide, le_rfl⟩
  unfold decayScale
  split
  · exact hhalf.fadd (hrep 21 (by decide)) (hrep 21 (by decide)) hd (by decide) (by decide)
  · have hdist : Between (1 * 2 ^ 149) (1 * 2 ^ 149) (fsub d fHalf) :=
      hd.fsub (hrep 1 (by decide)) (hrep 1 (by decide)) hhalf (by decide) (by decide)
    have hdouble : Between (2 * 2 ^ 149) (2 * 2 ^ 149) (fmul (fsub d fHalf) fTwo) :=
      hdist.fmul (hrep 2 (by decide)) (hrep 2 (by decide)) htwo (by decide +kernel) (by decide +kernel)
    have hspan : Between (10 * 2 ^ 149) (10 * 2 ^ 149) (fsub (maxScale w) fOne) :=
      (between_maxScale hw).fsub (hrep 10 (by decide)) (hrep 10 (by decide)) hone (by decide) (by decide)
    have hprod : Between (20 * 2 ^ 149) (20 * 2 ^ 149) (fmul (fmul (fsub d fHalf) fTwo) (fsub (maxScale w) fOne)) :=
      hdouble.fmul (hrep 20 (by decide)) (hrep 20 (by decide)) hspan (by decide +kernel) (by decide +kernel)
    exact hone.fadd (hrep 21 (by decide)) (hrep 21 (by decide)) hprod (by decide) (by decide)

/-- The wall gain stays within 0.995 for a legal decay (44_parameter_controller.md R109). -/
theorem wallGain_mem {l h : Nat} {d w : F32} (hd : Between 0 (2 ^ 149) (toVal d)) (hw : Between l h (toVal w)) :
    fle (toVal 0xBF7EB852#32) (toVal (wallGain d w)) = true ∧
      fle (toVal (wallGain d w)) (toVal 0x3F7EB852#32) = true := by
  have hscale := between_decayScale hd hw
  have hlow : fneg f0995 = toVal 0xBF7EB852#32 := by decide +kernel
  rw [wallGain, toVal_pack_fclamp (toVal_pack_fmul hw hscale) (by decide +kernel) (by decide +kernel), ← hlow]
  exact fclamp_mem (fmul_ne_nan hw hscale) (by decide +kernel) (by decide +kernel) (by decide +kernel)

/-- A gain times a control that is scaled by `2 ^ j` keeps its range scaled by `2 ^ j`: the product's bounds are exact
(44_parameter_controller.md R106, R107). -/
theorem inRange_controlGain {b g : F32} {c : FVal} {j : Nat} (hj : j ≤ 2) (hc : c = .num false (2 ^ (149 + j)))
    (hb : Between (2 ^ 149) (32767 * 2 ^ 134) (toVal b)) (hg : Between 0 (2 ^ 149) (toVal g)) :
    InRange (.num true (2 ^ (149 + j))) (.num false (2 ^ (149 + j))) (pack (fmul (toVal b) (fmul (toVal g) c))) := by
  have hrep (m : Nat) (hm : m ≤ 2 ^ 15) : Representable (m * 2 ^ (134 + j)) :=
    ⟨(Nat.mul_le_mul hm (Nat.pow_le_pow_right (by decide) (Nat.add_le_add_left hj 134))).trans_lt (by decide +kernel),
      m, 134 + j, by omega, rfl⟩
  have hone : 2 ^ (149 + j) = 2 ^ 15 * 2 ^ (134 + j) := by rw [← Nat.pow_add]; congr 1; omega
  have htop : 32767 * 2 ^ 134 * 2 ^ (149 + j) = 32767 * 2 ^ (134 + j) * 2 ^ 149 := by ring
  have hzero : Representable 0 := ⟨by decide +kernel, 0, 0, by decide, rfl⟩
  have hbound : Representable (2 ^ (149 + j)) := hone ▸ hrep _ le_rfl
  have hcontrol : Between 0 (2 ^ (149 + j)) (fmul (toVal g) c) :=
    hg.fmul hzero hbound (hc ▸ between_num_false _) (by simp) (by simp [Nat.mul_comm])
  have hprod : Between (2 ^ (149 + j)) (32767 * 2 ^ (134 + j)) (fmul (toVal b) (fmul (toVal g) c)) :=
    hb.fmul hbound (hrep _ (by decide)) hcontrol (by simp [Nat.mul_comm]) (by rw [htop]; simp)
  rw [← toVal_pack_fmul hb hcontrol] at hprod
  refine inRange_of_between hprod ?_ le_rfl
  rw [hone]
  exact Nat.mul_lt_mul_of_pos_right (by decide) (Nat.two_pow_pos _)

/-- Settles O42: `BASE` holds raw gains over 32768, `Derive` clamps the wall gain and scales the four others. -/
theorem gainsStayInTheirRanges : Obligations.GainsStayInTheirRanges := by
  intro s hs hlegal
  obtain ⟨hbase, hcur⟩ := hs
  obtain ⟨hdecay, -, hingain, hrevlvl⟩ := hlegal
  have hgain : ∀ g ∈ allGains s.base, Between (2 ^ 149) (32767 * 2 ^ 134) (toVal g) := by
    intro g hg
    rw [hbase] at hg
    obtain ⟨q, hq⟩ := exists_gainOf_of_mem hg
    rw [hq]
    exact between_gainOf q
  have hunit : ∀ g ∈ allGains s.base, InRange (whole true 1) (whole false 1) g := by
    intro g hg
    exact inRange_of_between (k := 1 * 2 ^ 149) (hgain g hg) (by decide) (by decide)
  have hin : ∀ g ∈ allGains s.base, InRange (whole true 2) (whole false 2) (inputGain s.ctl.ingain g) := by
    intro g hg
    exact inRange_controlGain (j := 1) (by decide) (by decide +kernel) (hgain g hg) (between_of_inUnit hingain)
  have hout : ∀ g ∈ allGains s.base, InRange (whole true 4) (whole false 4) (outputGain s.ctl.revlvl g) := by
    intro g hg
    exact inRange_controlGain (j := 2) (by decide) (by decide +kernel) (hgain g hg) (between_of_inUnit hrevlvl)
  rw [hcur, derive_eq]
  refine ⟨hunit, fun g hg => hunit g (List.mem_append_left _ hg),
    wallGain_mem (between_of_inUnit hdecay) (hgain s.base.vWALL (by simp [allGains])), fun g hg => ?_, fun g hg => ?_⟩
  · rcases List.mem_pair.1 hg with rfl | rfl
    · exact hin _ (by simp [allGains])
    · exact hin _ (by simp [allGains])
  · rcases List.mem_pair.1 hg with rfl | rfl
    · exact hout _ (by simp [allGains])
    · exact hout _ (by simp [allGains])

end Sys2Proof.Machine

/-! ### Proofs: the Work Area (20_memory.md R28 to R35)

A masked address is the sum modulo the size, since the size is a power of two that divides `2 ^ 16`. Truncation is integer
division toward zero, so it keeps the order of values, and a bound of a value bounds its stored sample. Scaling a binary32
number by 32768 only moves its exponent, so it is exact until it overflows, far past the saturation bounds. -/

namespace Sys2Proof.Machine

/-! #### The effective address -/

theorem WorkArea.Inv.size_dvd {w : WorkArea} (h : w.Inv) : (w.size : Int) ∣ 2 ^ 16 := by
  obtain ⟨hpow, hle, -⟩ := h
  have hlog : w.size.log2 ≤ 16 := (Nat.pow_le_pow_iff_right (by decide)).1 (hpow ▸ hle : 2 ^ w.size.log2 ≤ 2 ^ 16)
  rw [hpow]
  exact_mod_cast Nat.pow_dvd_pow 2 hlog

/-- The mask is the remainder modulo the size (20_memory.md R28). -/
theorem WorkArea.Inv.ea_eq_addressOf {w : WorkArea} (h : w.Inv) (off : Int) : (w.ea off : Int) = addressOf w off := by
  have hdvd := h.size_dvd
  obtain ⟨hpow, -, hmask, -⟩ := h
  have hlow : 0 ≤ ((w.base.toNat : Int) + off) % ((2 ^ 16 : Nat) : Int) := Int.emod_nonneg _ (by decide)
  calc (w.ea off : Int)
      = ((((w.base.toNat : Int) + off) % ((2 ^ 16 : Nat) : Int)).toNat % w.size : Nat) := by
        rw [WorkArea.ea, BitVec.toNat_and, BitVec.toNat_ofInt, hmask, hpow, Nat.and_two_pow_sub_one_eq_mod, ← hpow]
    _ = ((w.base.toNat : Int) + off) % 2 ^ 16 % w.size := by rw [Int.natCast_emod, Int.toNat_of_nonneg hlow]; rfl
    _ = addressOf w off := Int.emod_emod_of_dvd _ hdvd

/-- The address depends on the offset modulo `2 ^ 16` only. -/
theorem WorkArea.Inv.addressOf_congr {w : WorkArea} (h : w.Inv) {a b : Int} (hab : a ≡ b [ZMOD 2 ^ 16]) :
    addressOf w a = addressOf w b :=
  (hab.of_dvd h.size_dvd).add_left w.base.toNat

/-- Zero extension and sign extension of a field agree modulo `2 ^ 16`. -/
theorem toNat_modEq_toInt (f : Half) : (f.toNat : Int) ≡ f.toInt [ZMOD 2 ^ 16] := by
  rw [BitVec.toInt_eq_toNat_bmod]
  exact Int.bmod_emod.symm

/-- Settles O17: the mask is the remainder modulo the size. -/
theorem effectiveAddressIsModuloTheSize : Obligations.EffectiveAddressIsModuloTheSize := by
  intro w off h
  have hea := h.ea_eq_addressOf off
  have hmask := w.ea_le_mask off
  exact ⟨hea, by omega, by omega⟩

/-- Settles O18: the two readings of the field agree modulo `2 ^ 16`, which the size divides. -/
theorem offsetSignDoesNotMatter : Obligations.OffsetSignDoesNotMatter := by
  intro w f h
  have haddr := h.addressOf_congr (toNat_modEq_toInt f)
  refine ⟨?_, haddr⟩
  zify
  rw [h.ea_eq_addressOf, h.ea_eq_addressOf, haddr]

/-! #### Truncation and saturation -/

theorem trunc_eq_tdiv (neg : Bool) (mag : Nat) : trunc neg mag = (units neg mag).tdiv (2 ^ 149 : Nat) := by
  cases neg with
  | false => exact Int.ofNat_tdiv mag (2 ^ 149)
  | true => rw [trunc, units_true, units_true, Int.neg_tdiv, Int.ofNat_tdiv]

/-- Truncation keeps the order of values. -/
theorem trunc_mono {a b : Bool} {x y : Nat} (h : units a x ≤ units b y) : trunc a x ≤ trunc b y := by
  rw [trunc_eq_tdiv, trunc_eq_tdiv]
  exact Int.tdiv_le_tdiv (by positivity) h

/-- A whole number truncates to itself. -/
theorem trunc_whole (neg : Bool) (n : Nat) : trunc neg (n * 2 ^ 149) = units neg n := by
  rw [trunc, Nat.mul_div_cancel n (Nat.two_pow_pos 149)]

theorem le_trunc_of_le_units {neg : Bool} {mag n : Nat} (h : units false (n * 2 ^ 149) ≤ units neg mag) :
    (n : Int) ≤ trunc neg mag :=
  (trunc_whole false n).ge.trans (trunc_mono h)

theorem trunc_le_of_units_le {neg : Bool} {mag n : Nat} (h : units neg mag ≤ units true (n * 2 ^ 149)) :
    trunc neg mag ≤ -n :=
  (trunc_mono h).trans_eq (trunc_whole true n)

theorem iclamp_eq_max_min (n : Int) {lo hi : Int} (h : lo ≤ hi) : iclamp n lo hi = max lo (min hi n) := by
  unfold iclamp
  split
  · omega
  · split <;> omega

/-- A number from -32768 to 32767 is the value of its 16-bit word. -/
theorem toInt_ofInt_half {n : Int} (hlow : -32768 ≤ n) (hhigh : n ≤ 32767) : (BitVec.ofInt 16 n).toInt = n :=
  BitVec.toInt_ofInt_eq_self (by decide) hlow (Int.lt_add_one_of_le hhigh)

/-- The stored sample of a number (20_memory.md R32). -/
theorem toInt_toS16_num (neg : Bool) (mag : Nat) :
    (toS16 (.num neg mag)).toInt = max (-32768) (min 32767 (trunc neg mag)) := by
  rw [toS16, iclamp_eq_max_min _ (by decide)]
  exact toInt_ofInt_half (by omega) (by omega)

/-- Settles O24: each bound of the value is a bound of its truncation. -/
theorem toS16TruncatesAndSaturates : Obligations.ToS16TruncatesAndSaturates := by
  intro v
  refine ⟨?nan, ?above, ?below, ?between⟩
  case nan =>
    rintro rfl
    rfl
  case above =>
    intro h
    cases v with
    | num neg mag =>
      have htrunc := le_trunc_of_le_units (of_decide_eq_true h)
      rw [toInt_toS16_num]
      omega
    | inf neg =>
      cases neg
      · rfl
      · exact absurd h Bool.false_ne_true
    | nan => exact absurd h Bool.false_ne_true
  case below =>
    intro h
    cases v with
    | num neg mag =>
      have htrunc := trunc_le_of_units_le (of_decide_eq_true h)
      rw [toInt_toS16_num]
      omega
    | inf neg =>
      cases neg
      · exact absurd h Bool.false_ne_true
      · rfl
    | nan => exact absurd h Bool.false_ne_true
  case between =>
    rintro neg mag rfl hhigh hlow
    have htop := (trunc_mono (of_decide_eq_true hhigh : units _ _ < units _ _).le).trans_eq (trunc_whole false 32767)
    have hbottom := (trunc_whole true 32768).ge.trans (trunc_mono (of_decide_eq_true hlow : units _ _ < units _ _).le)
    rw [units_false] at htop
    rw [units_true] at hbottom
    rw [toInt_toS16_num, max_eq_right (by omega), min_eq_right (by omega)]
    rfl

/-! #### A write and a read of the same offset -/

/-- The magnitude of an encoding has 24 significant bits (30_encoding.md R52). -/
theorem representable_of_toVal_eq {v : F32} {neg : Bool} {mag : Nat} (h : toVal v = .num neg mag) :
    Representable mag := by
  have hfrac := (fracField v).isLt
  have hexp := (expField v).isLt
  unfold toVal at h
  split at h
  · split at h <;> cases h
  · have hne : (expField v).toNat ≠ 255 := fun heq => ‹expField v ≠ 0xFF#8› (BitVec.eq_of_toNat_eq heq)
    split at h <;> obtain ⟨-, rfl⟩ := FVal.num.inj h
    · exact ⟨hfrac.trans (by decide +kernel), _, 0, by omega, (Nat.mul_one _).symm⟩
    · refine ⟨?_, _, _, by omega, rfl⟩
      calc (2 ^ 23 + (fracField v).toNat) * 2 ^ ((expField v).toNat - 1)
          < 2 ^ 24 * 2 ^ ((expField v).toNat - 1) := Nat.mul_lt_mul_of_pos_right (by omega) (Nat.two_pow_pos _)
        _ ≤ 2 ^ 24 * 2 ^ 253 := Nat.mul_le_mul_left _ (Nat.pow_le_pow_right (by decide) (by omega))
        _ = 2 ^ 277 := by rw [show 277 = 24 + 253 from rfl, Nat.pow_add]

theorem f32768_eq : f32768 = .num false (2 ^ 15 * 2 ^ 149) := by decide +kernel

/-- Scaling by 32768 is exact unless it overflows. -/
theorem fmul_f32768 (neg : Bool) {mag : Nat} (h : Representable mag) :
    fmul (.num neg mag) f32768 = if mag < 2 ^ 262 then .num neg (mag * 2 ^ 15) else .inf neg := by
  obtain ⟨-, m, e, hm, rfl⟩ := h
  have hscale : m * 2 ^ e * 2 ^ 15 = m * 2 ^ (e + 15) := by ring
  have hoverflow : 2 ^ 277 = 2 ^ 262 * 2 ^ 15 := by rw [← Nat.pow_add]
  rw [f32768_eq, fmul_num, Bool.xor_false, ← Nat.mul_assoc]
  split
  next hlt =>
    rw [hscale]
    refine roundMag_exact neg m (e + 15) (Nat.two_pow_pos 149) hm ?_
    rw [← hscale, hoverflow]
    exact Nat.mul_lt_mul_of_pos_right hlt (Nat.two_pow_pos 15)
  next hge =>
    have hreach : 2 ^ 277 ≤ m * 2 ^ e * 2 ^ 15 := by
      rw [hoverflow]
      exact Nat.mul_le_mul_right _ (Nat.not_lt.1 hge)
    have hthreshold : 2 ^ 277 - 2 ^ 252 ≤ m * 2 ^ e * 2 ^ 15 := (Nat.sub_le ..).trans hreach
    have hround := le_roundedMag_of_le (Nat.two_pow_pos 149) (Nat.mul_le_mul_right _ hthreshold)
    rw [roundMag_eq, if_neg (Nat.not_lt.2 hround)]

theorem storedSample_eq (neg : Bool) (mag : Nat) :
    storedSample neg mag = max (-32768) (min 32767 (units neg (mag / 2 ^ 134))) := rfl

theorem storedSample_mem (neg : Bool) (mag : Nat) : -32768 ≤ storedSample neg mag ∧ storedSample neg mag ≤ 32767 := by
  rw [storedSample_eq]
  omega

/-- The sample a write of a number stores (20_memory.md R34). -/
theorem quant16_num (neg : Bool) {mag : Nat} (h : Representable mag) :
    quant16 (.num neg mag) = BitVec.ofInt 16 (storedSample neg mag) := by
  rw [quant16, fmul_f32768 neg h, storedSample_eq]
  split
  next =>
    have hdiv : mag * 2 ^ 15 / 2 ^ 149 = mag / 2 ^ 134 := by
      rw [show 149 = 134 + 15 from rfl, Nat.pow_add]
      exact Nat.mul_div_mul_right _ _ (Nat.two_pow_pos 15)
    rw [toS16, iclamp_eq_max_min _ (by decide), trunc, hdiv]
  next hge =>
    have hbig : 2 ^ 15 ≤ mag / 2 ^ 134 := by
      rw [Nat.le_div_iff_mul_le (Nat.two_pow_pos 134), ← Nat.pow_add]
      exact (Nat.pow_le_pow_right (by decide) (by decide)).trans (Nat.not_lt.1 hge)
    cases neg with
    | false =>
      rw [units_false, min_eq_left (by omega)]
      rfl
    | true =>
      rw [units_true, min_eq_right (by omega), max_eq_left (by omega)]
      rfl

/-- A sample over 32768 is encoded without loss in a result register (20_memory.md R33). -/
theorem toVal_encodeAt_scaled16 (n : Nat) (q : Half) : toVal (encodeAt n (scaled16 q)) = exact16 q := by
  rw [scaled16_eq]
  exact toVal_pack_num _ (representable_exact16 q)

/-- Reading the offset just written gives the value as a sample. -/
theorem WorkArea.rr_wr_self {w : WorkArea} (h : w.ram.wf = true) (off : Int) (v : FVal) :
    (w.wr off v).rr off = scaled16 (quant16 v) := by
  rw [WorkArea.rr, WorkArea.wr_ea, WorkArea.read_wr h, if_pos rfl]

/-- A value that is a number comes from a finite encoding. -/
theorem isFinite_of_toVal_eq {v : F32} {neg : Bool} {mag : Nat} (h : toVal v = .num neg mag) : isFinite v = true := by
  unfold toVal at h
  split at h
  · split at h <;> cases h
  · exact bne_iff_ne.2 ‹_›

theorem exec_waRd_eq (off : Half) (s : State) :
    exec (.waRd off) s = .next (s.withRes0Val (s.wa.rr (zextImm off))) := by
  simp only [exec, execWaRd]

/-- A list goes on after its first command. -/
theorem runInstrs_cons {i : Instr} {s t : State} (rest : List Instr) (h : exec i s = .next t) :
    runInstrs (i :: rest) s = runInstrs rest t := by
  simp only [runInstrs, h]

/-- The state a write and a read of one offset leave. -/
theorem runInstrs_waWr_waRd {off : Half} {v : F32} (s : State) (h : isFinite v = true) :
    runInstrs [.waWr off v, .waRd off] s = .next ((s.withWa (s.wa.wr (zextImm off) (toVal v))).withRes0Val
      ((s.wa.wr (zextImm off) (toVal v)).rr (zextImm off))) := by
  rw [runInstrs_cons _ (exec_waWr_of_wellFormed s h), runInstrs_cons _ (exec_waRd_eq off _), State.withWa_wa, runInstrs]

/-- Settles O21: the read finds the sample the write stored, and the result register holds it exactly. -/
theorem waRdAfterWaWrReturnsTheStoredValue : Obligations.WaRdAfterWaWrReturnsTheStoredValue := by
  intro off v neg mag s hinv hv
  obtain ⟨-, -, -, -, hwf, -⟩ := hinv
  obtain ⟨hlow, hhigh⟩ := storedSample_mem neg mag
  refine ⟨_, runInstrs_waWr_waRd s (isFinite_of_toVal_eq hv), ?_, toInt_ofInt_half hlow hhigh⟩
  rw [State.withRes0Val_res0, WorkArea.rr_wr_self hwf, hv, quant16_num neg (representable_of_toVal_eq hv)]
  exact toVal_encodeAt_scaled16 _ _

end Sys2Proof.Machine

/-! ### Proofs: the command word (30_encoding.md R47 to R50)

Both round trips go through the fields of a word. A word that matches a row under its mask is put together from the row's
`OPC`, a selector and an immediate, and the mask says which selectors and immediates those can be
(`fields_of_match`, `eq_commandWord_of_match`). -/

namespace Sys2Proof.Machine

/-! #### The row of an opcode -/

theorem mem_opcodes (op : Opcode) : op ∈ opcodes := by cases op <;> decide

theorem opcodeOf_code (op : Opcode) : opcodeOf op.code = some op := by cases op <;> decide

/-- The table finds exactly the row that has the `OPC`; no two rows have the same. -/
theorem opcodeOf_eq_some_iff {c : BitVec 8} {op : Opcode} : opcodeOf c = some op ↔ op.code = c := by
  constructor
  · intro h
    have hfound : (op.code == c) = true := List.find?_some (p := fun row => Opcode.code row == c) h
    exact beq_iff_eq.1 hfound
  · rintro rfl
    exact opcodeOf_code op

theorem opcodeOf_eq_none_iff {c : BitVec 8} : opcodeOf c = none ↔ ∀ op : Opcode, op.code ≠ c := by
  rw [Option.eq_none_iff_forall_ne_some]
  exact forall_congr' fun op => not_congr opcodeOf_eq_some_iff

/-! #### What the decoder answers -/

theorem decode_of_opcodeOf_none {c : CmdWords} (h : opcodeOf (opcBits c.cmd) = none) :
    decode c = .rejected .illOpc := by
  rw [opcBits] at h
  simp only [decode, h]

/-- For a word whose `OPC` is that of a row, the row's mask decides. -/
theorem decode_of_opc {c : CmdWords} {op : Opcode} (h : op.code = opcBits c.cmd) :
    decode c = if c.cmd &&& op.format.mask = op.matchWord then .ok (buildInstr op c) else .rejected .rsv := by
  have hrow : opcodeOf (c.cmd.extractLsb' 24 8) = some op := opcodeOf_eq_some_iff.2 h
  simp only [decode, hrow]

/-- The three answers of the decoder, each with the row it comes from (30_encoding.md R50). -/
theorem decode_cases (c : CmdWords) :
    ((∀ op : Opcode, op.code ≠ opcBits c.cmd) ∧ decode c = .rejected .illOpc) ∨
      ∃ op : Opcode, op.code = opcBits c.cmd ∧
        ((c.cmd &&& op.format.mask = op.matchWord ∧ decode c = .ok (buildInstr op c)) ∨
          (c.cmd &&& op.format.mask ≠ op.matchWord ∧ decode c = .rejected .rsv)) := by
  cases hrow : opcodeOf (opcBits c.cmd) with
  | none => exact .inl ⟨opcodeOf_eq_none_iff.1 hrow, decode_of_opcodeOf_none hrow⟩
  | some op =>
    have hopc := opcodeOf_eq_some_iff.1 hrow
    refine .inr ⟨op, hopc, ?_⟩
    by_cases hmask : c.cmd &&& op.format.mask = op.matchWord
    · exact .inl ⟨hmask, by rw [decode_of_opc hopc, if_pos hmask]⟩
    · exact .inr ⟨hmask, by rw [decode_of_opc hopc, if_neg hmask]⟩

/-- What it takes for a command to be decoded. -/
theorem row_of_decode_eq_ok {c : CmdWords} {i : Instr} (h : decode c = .ok i) :
    ∃ op : Opcode, op.code = opcBits c.cmd ∧ c.cmd &&& op.format.mask = op.matchWord ∧ i = buildInstr op c := by
  rcases decode_cases c with ⟨-, hdec⟩ | ⟨op, hopc, ⟨hmask, hdec⟩ | ⟨-, hdec⟩⟩ <;> rw [hdec] at h
  · cases h
  · exact ⟨op, hopc, hmask, (Decoded.ok.inj h).symm⟩
  · cases h

/-! #### The fields of a word -/

/-- `SEL`, bits 23:20 (30_encoding.md R47). -/
def selField (w : Word) : BitVec 4 := w.extractLsb' 20 4

/-- The low bits of `SEL` as bits of the word. -/
theorem extractLsb'_selField (w : Word) {len : Nat} (h : len ≤ 4) :
    (selField w).extractLsb' 0 len = w.extractLsb' 20 len := by
  ext j hj
  simp [selField, show j < 4 by omega]

/-- `CH` is bit 0 of `SEL`. -/
theorem channelField_eq (w : Word) :
    channelField w = if (selField w).extractLsb' 0 1 = 0#1 then .left else .right := by
  rw [extractLsb'_selField w (by decide), channelField]

/-- `HBSEL` is bits 1:0 of `SEL`. -/
theorem ringField_eq (w : Word) :
    ringField w = if (selField w).extractLsb' 0 2 = 0#2 then .downL
      else if (selField w).extractLsb' 0 2 = 1#2 then .downR
      else if (selField w).extractLsb' 0 2 = 2#2 then .upL else .upR := by
  rw [extractLsb'_selField w (by decide), ringField]

/-- `SLOT` is bits 5:0 of `IMM`. -/
theorem slotField_eq (w : Word) : slotField w = (immField w).extractLsb' 0 6 := by
  rw [immField, BitVec.extractLsb'_extractLsb'_of_le (by decide)]
  rfl

theorem selField_commandWord (op : Opcode) (sel : BitVec 4) (imm : Half) :
    selField (commandWord op sel imm) = sel := commandWord_sel op sel imm

theorem channelField_commandWord (op : Opcode) (ch : Channel) (imm : Half) :
    channelField (commandWord op ch.sel imm) = ch := by
  rw [channelField_eq, selField_commandWord]
  cases ch <;> rfl

theorem ringField_commandWord (op : Opcode) (k : RingSel) (imm : Half) :
    ringField (commandWord op k.sel imm) = k := by
  rw [ringField_eq, selField_commandWord]
  cases k <;> rfl

theorem slotField_commandWord (op : Opcode) (sel : BitVec 4) (slot : BitVec 6) :
    slotField (commandWord op sel (slot.zeroExtend 16)) = slot := by
  rw [slotField_eq, commandWord_imm, BitVec.zeroExtend_eq_setWidth, BitVec.extractLsb'_setWidth_of_le (by decide),
    BitVec.extractLsb'_eq_self]

/-! #### From a command to its words and back -/

/-- The encoding of every command has its row's opcode and fixed bits. -/
theorem encodedRow (i : Instr) : Laws.EncodedRow.Statement i := by
  cases i with
  | nop => exact Laws.EncodedRow.nop
  | init => exact Laws.EncodedRow.init
  | hbDec ch x0 x1 => exact Laws.EncodedRow.hbDec ch x0 x1
  | hbInt ch y => exact Laws.EncodedRow.hbInt ch y
  | waRd off => exact Laws.EncodedRow.waRd off
  | waWr off v => exact Laws.EncodedRow.waWr off v
  | waAdv n => exact Laws.EncodedRow.waAdv n
  | waResize bytes => exact Laws.EncodedRow.waResize bytes
  | rvTick xL xR => exact Laws.EncodedRow.rvTick xL xR
  | psApply idx => exact Laws.EncodedRow.psApply idx
  | psDecay v => exact Laws.EncodedRow.psDecay v
  | psIngain v => exact Laws.EncodedRow.psIngain v
  | psRevlvl v => exact Laws.EncodedRow.psRevlvl v
  | psMix v => exact Laws.EncodedRow.psMix v
  | psDerive => exact Laws.EncodedRow.psDerive
  | get item => exact Laws.EncodedRow.get item
  | getHb k slot => exact Laws.EncodedRow.getHb k slot
  | processPair f0 f1 => exact Laws.EncodedRow.processPair f0 f1

/-- A row reads back the fields and operands its commands are written with. -/
theorem buildInstr_encode (i : Instr) : buildInstr i.opcode (encode i) = i := by
  cases i with
  | nop | init | rvTick | psDecay | psIngain | psRevlvl | psMix | psDerive | processPair => rfl
  | hbDec ch x0 x1 => exact congrArg (Instr.hbDec · x0 x1) (channelField_commandWord _ ch _)
  | hbInt ch y => exact congrArg (Instr.hbInt · y) (channelField_commandWord _ ch _)
  | waRd off => exact congrArg Instr.waRd (commandWord_imm _ _ off)
  | waWr off v => exact congrArg (Instr.waWr · v) (commandWord_imm _ _ off)
  | waAdv n => exact congrArg Instr.waAdv (commandWord_imm _ _ n)
  | waResize bytes => exact congrArg Instr.waResize (commandWord_imm _ _ bytes)
  | psApply idx => exact congrArg Instr.psApply (commandWord_imm _ _ idx)
  | get item => exact congrArg Instr.get (commandWord_imm _ _ item)
  | getHb k slot => exact congrArg₂ Instr.getHb (ringField_commandWord _ k _) (slotField_commandWord _ _ slot)

/-- Settles O2: the encoding meets its row's opcode and mask, and the row reads back its fields. -/
theorem decodeOfEncodeIsTheCommand : Obligations.DecodeOfEncodeIsTheCommand := by
  intro i
  obtain ⟨hopc, hmask⟩ := encodedRow i
  rw [decode_of_opc hopc.symm, if_pos hmask, buildInstr_encode]

/-! #### From the words to a command and back -/

/-- A word is its four fields (30_encoding.md R47). -/
theorem word_eq_fields (w : Word) : w = opcBits w ++ selField w ++ w.extractLsb' 16 4 ++ immField w := by
  rw [opcBits, selField, immField, BitVec.extractLsb'_append_extractLsb'_eq_extractLsb' (by decide),
    BitVec.extractLsb'_append_extractLsb'_eq_extractLsb' (by decide),
    BitVec.extractLsb'_append_extractLsb'_eq_extractLsb' (by decide)]
  exact BitVec.extractLsb'_eq_self.symm

/-- What the masks leave of the fields: `RSV` is 0, and `SEL` and `IMM` are 0 under their part of the mask
(30_encoding.md R48). -/
theorem fields_of_match {w : Word} {op : Opcode} (h : w &&& op.format.mask = op.matchWord) :
    selField w &&& selField op.format.mask = 0#4 ∧ w.extractLsb' 16 4 = 0#4 ∧
      immField w &&& immField op.format.mask = 0#16 := by
  have hfield (start len : Nat) :
      w.extractLsb' start len &&& op.format.mask.extractLsb' start len = op.matchWord.extractLsb' start len := by
    rw [← BitVec.extractLsb'_and, h]
  refine ⟨(hfield 20 4).trans (by cases op <;> rfl), ?_, (hfield 0 16).trans (by cases op <;> rfl)⟩
  have hmask : op.format.mask.extractLsb' 16 4 = BitVec.allOnes 4 := by cases op <;> rfl
  have hrsv := (hfield 16 4).trans (show _ = 0#4 by cases op <;> rfl)
  rwa [hmask, BitVec.and_allOnes] at hrsv

/-- A word that matches a row is written with the row's opcode and its own selector and immediate. -/
theorem eq_commandWord_of_match {w : Word} {op : Opcode} (hopc : op.code = opcBits w)
    (h : w &&& op.format.mask = op.matchWord) : w = commandWord op (selField w) (immField w) := by
  obtain ⟨-, hrsv, -⟩ := fields_of_match h
  rw [commandWord, hopc, ← hrsv]
  exact word_eq_fields w

/-- A selector of which only `CH` may be set is the channel's. -/
theorem sel_channelField {w : Word} (h : selField w &&& 0xE#4 = 0#4) : (channelField w).sel = selField w := by
  rw [channelField_eq]
  generalize selField w = sel at h ⊢
  revert sel
  decide

/-- A selector of which only `HBSEL` may be set is the ring's. -/
theorem sel_ringField {w : Word} (h : selField w &&& 0xC#4 = 0#4) : (ringField w).sel = selField w := by
  rw [ringField_eq]
  generalize selField w = sel at h ⊢
  revert sel
  decide

/-- An immediate of which only `SLOT` may be set is the slot's. -/
theorem zeroExtend_slotField {w : Word} (h : immField w &&& 0xFFC0#16 = 0#16) :
    (slotField w).zeroExtend 16 = immField w := by
  rw [slotField_eq]
  generalize immField w = imm at h ⊢
  ext j hj
  by_cases hlow : j < 6
  · simp [hlow, BitVec.getLsbD_eq_getElem hj]
  · have hmask : (0xFFC0#16).getLsbD j = true := by interval_cases j <;> rfl
    have hbit : imm.getLsbD j = false := by
      simpa only [BitVec.getLsbD_and, hmask, Bool.and_true, BitVec.getLsbD_zero] using congrArg (·.getLsbD j) h
    simp [hlow, ← BitVec.getLsbD_eq_getElem hj, hbit]

/-- A field all of whose bits the mask fixes is 0. -/
theorem eq_zero_of_and_allOnes {n : Nat} {x : BitVec n} (h : x &&& BitVec.allOnes n = 0#n) : x = 0#n :=
  BitVec.and_allOnes.symm.trans h

/-- The encoder writes the command word of a row's command back: what the format's mask leaves free is what the row
reads. -/
theorem encode_buildInstr_cmd {op : Opcode} {c : CmdWords} (hopc : op.code = opcBits c.cmd)
    (h : c.cmd &&& op.format.mask = op.matchWord) : (encode (buildInstr op c)).cmd = c.cmd := by
  have hword := eq_commandWord_of_match hopc h
  obtain ⟨hsel, -, himm⟩ := fields_of_match h
  cases op with
  | nop | init | rvTick | psDecay | psIngain | psRevlvl | psMix | psDerive | processPair =>
    rw [eq_zero_of_and_allOnes hsel, eq_zero_of_and_allOnes himm] at hword
    exact hword.symm
  | hbDec | hbInt =>
    rw [← sel_channelField hsel, eq_zero_of_and_allOnes himm] at hword
    exact hword.symm
  | waRd | waWr | waAdv | waResize | psApply | get =>
    rw [eq_zero_of_and_allOnes hsel] at hword
    exact hword.symm
  | getHb =>
    rw [← sel_ringField hsel, ← zeroExtend_slotField himm] at hword
    exact hword.symm

/-- The encoder writes the operands that a row's command uses, and 0 for the others (log 12). -/
theorem encode_buildInstr_operands (op : Opcode) (c : CmdWords) :
    (encode (buildInstr op c)).opa = (if usesOpa (buildInstr op c) then c.opa else 0#32) ∧
      (encode (buildInstr op c)).opb = (if usesOpb (buildInstr op c) then c.opb else 0#32) := by
  cases op <;> exact ⟨rfl, rfl⟩

/-- Settles O3: the word matches its row, so its fields are those the row reads and the encoder writes. -/
theorem encodeOfDecodedIsTheWord : Obligations.EncodeOfDecodedIsTheWord := by
  intro c i h
  obtain ⟨op, hopc, hmask, rfl⟩ := row_of_decode_eq_ok h
  obtain ⟨hopa, hopb⟩ := encode_buildInstr_operands op c
  rw [← hopa, ← hopb, ← encode_buildInstr_cmd hopc hmask]

/-! #### The table of the statements -/

/-- The rows of 30_encoding.md R49 are the match words and masks of the decoder's opcodes. -/
theorem tableRows_eq : tableRows = opcodes.map fun op => (op.matchWord, op.format.mask) := by decide

theorem opcBits_matchWord (op : Opcode) : opcBits op.matchWord = op.code := by cases op <;> rfl

theorem forall_mem_tableRows {P : Word × Word → Prop} :
    (∀ r ∈ tableRows, P r) ↔ ∀ op : Opcode, P (op.matchWord, op.format.mask) := by
  simp only [tableRows_eq, List.forall_mem_map, mem_opcodes, true_imp_iff]

theorem exists_mem_tableRows {P : Word × Word → Prop} :
    (∃ r ∈ tableRows, P r) ↔ ∃ op : Opcode, P (op.matchWord, op.format.mask) := by
  simp only [tableRows_eq, List.mem_map, mem_opcodes, true_and, exists_exists_eq_and]

theorem opcode_eq_of_code_eq {op row : Opcode} (h : op.code = row.code) : op = row :=
  Option.some.inj ((opcodeOf_code op).symm.trans (h ▸ opcodeOf_code row))

/-- Settles O4: the decoder's answer comes with its row, and the `OPC` determines the row. -/
theorem decoderAcceptsExactlyTheTableRows : Obligations.DecoderAcceptsExactlyTheTableRows := by
  intro c
  simp only [forall_mem_tableRows, exists_mem_tableRows, opcBits_matchWord]
  rcases decode_cases c with ⟨hnone, hdec⟩ | ⟨row, hopc, hanswer⟩
  · rw [hdec]
    exact ⟨iff_of_true rfl hnone, iff_of_false nofun fun ⟨op, h, _⟩ => hnone op h,
      iff_of_false nofun fun ⟨op, h, _⟩ => hnone op h⟩
  · have hunique {op : Opcode} (h : op.code = opcBits c.cmd) : op = row := opcode_eq_of_code_eq (h.trans hopc.symm)
    rcases hanswer with ⟨hmask, hdec⟩ | ⟨hmask, hdec⟩ <;> rw [hdec]
    · exact ⟨iff_of_false nofun fun h => h row hopc, iff_of_false nofun fun ⟨_, h, hne⟩ => hne (hunique h ▸ hmask),
        iff_of_true ⟨_, rfl⟩ ⟨row, hopc, hmask⟩⟩
    · exact ⟨iff_of_false nofun fun h => h row hopc, iff_of_true rfl ⟨row, hopc, hmask⟩,
        iff_of_false nofun fun ⟨_, h, heq⟩ => hmask (hunique h ▸ heq)⟩

/-- Settles O1: each word against its row of the table. -/
theorem wordsOfEveryFamilyDecode : Obligations.WordsOfEveryFamilyDecode := by
  unfold Obligations.WordsOfEveryFamilyDecode
  decide

/-! #### The step of a transferred command -/

/-- A presented command whose words decode is what the sample asks for (30_encoding.md R45). -/
theorem requestOf_presented {c : CmdWords} {i : Instr} (h : decode c = .ok i) :
    requestOf true (presented c) = .command i := by
  simp only [requestOf, presented, if_true, h]

/-- Settles O5: the step serves the command on the state that has taken the sample and accepted it. -/
theorem stepRunsTheTransferredCommand : Obligations.StepRunsTheTransferredCommand := by
  intro s c i rest hhost hready hdec
  calc step s = serve (requestOf s.cmdReady (presented c)) (s.withHost rest) := step_cons hhost rfl
    _ = exec i (s.withHost rest).accept := by rw [hready, requestOf_presented hdec, serve]
    _ = exec i { s with host := rest, rspValid := true, rspErr := false } := by rw [State.accept_eq, State.withHost]

end Sys2Proof.Machine

/-! ### Proofs: the order of the setters in `STATE_RESTORE` (30_encoding.md R57, 92_eei_decisions.md D34)

`PS_APPLY` leaves a state whose `CUR` is derived. On such a state a setter writes its own control and leaves `CUR` derived,
so a list of setters acts on the controls alone, where setters of different controls commute. -/

namespace Sys2Proof.Machine

/-- What a setter stores in its control: a NaN leaves the old value (44_parameter_controller.md R104). -/
def storedControl (v old : F32) : F32 := if isNaN v then old else clamp01 v

/-- The controls after a setter (44_parameter_controller.md R105 to R108). -/
def Controls.afterSetter (c : Controls) : Instr → Controls
  | .psDecay v => { c with decay := storedControl v c.decay }
  | .psIngain v => { c with ingain := storedControl v c.ingain }
  | .psRevlvl v => { c with revlvl := storedControl v c.revlvl }
  | .psMix v => { c with mix := storedControl v c.mix }
  | _ => c

/-- The setters of the controls (44_parameter_controller.md R104). -/
def setterOpcodes : List Opcode := [.psDecay, .psIngain, .psRevlvl, .psMix]

/-- What a setter of a control that `CUR` depends on does to a derived `CUR`: whether it stores its operand or keeps the
old value, `CUR` is derived from the controls it leaves. -/
theorem State.rederive_setter (s : State) (v old : F32) (set : F32 → Controls) (hold : set old = s.ctl) :
    (if isNaN v then s.rederive else (s.rederive.withCtl (set (clamp01 v))).rederive) =
      (s.withCtl (set (storedControl v old))).rederive := by
  unfold storedControl
  split
  · rw [hold]
    rfl
  · rfl

/-- `CUR` does not depend on the mix (42_preset_scaler.md R83). -/
theorem State.rederive_setter_mix (s : State) (v : F32) :
    (if isNaN v then s.rederive else s.rederive.withCtl { s.ctl with mix := clamp01 v }) =
      (s.withCtl { s.ctl with mix := storedControl v s.ctl.mix }).rederive := by
  unfold storedControl
  split <;> rfl

/-- On a state with a derived `CUR` a setter acts on the controls alone. -/
theorem exec_setter_rederive {i : Instr} (hi : i.opcode ∈ setterOpcodes) (s : State) :
    exec i s.rederive = .next (s.withCtl (s.ctl.afterSetter i)).rederive := by
  cases i with
  | psDecay v =>
    rw [exec_psDecay_eq]
    exact congrArg Host.Outcome.next (s.rederive_setter v s.ctl.decay (fun x => { s.ctl with decay := x }) rfl)
  | psIngain v =>
    rw [exec_psIngain_eq]
    exact congrArg Host.Outcome.next (s.rederive_setter v s.ctl.ingain (fun x => { s.ctl with ingain := x }) rfl)
  | psRevlvl v =>
    rw [exec_psRevlvl_eq]
    exact congrArg Host.Outcome.next (s.rederive_setter v s.ctl.revlvl (fun x => { s.ctl with revlvl := x }) rfl)
  | psMix v =>
    rw [exec_psMix_eq]
    exact congrArg Host.Outcome.next (s.rederive_setter_mix v)
  | _ => exact absurd hi (by simp [setterOpcodes, Instr.opcode])

/-- A list of setters after a derivation of `CUR` acts on the controls one after the other. -/
theorem runInstrs_setters_rederive {is : List Instr} (his : ∀ i ∈ is, i.opcode ∈ setterOpcodes) (s : State) :
    runInstrs is s.rederive = .next (s.withCtl (is.foldl Controls.afterSetter s.ctl)).rederive := by
  induction is generalizing s with
  | nil => rfl
  | cons i rest ih =>
    obtain ⟨hi, hrest⟩ := List.forall_mem_cons.1 his
    rw [runInstrs_cons rest (exec_setter_rederive hi s), ih hrest]
    rfl

/-- The setters of `STATE_RESTORE` write four different controls, so their order does not matter. -/
theorem afterSetter_comm (c : Controls) (d m g l : F32) {i j : Instr}
    (hi : i ∈ [Instr.psDecay d, .psIngain g, .psRevlvl l, .psMix m])
    (hj : j ∈ [Instr.psDecay d, .psIngain g, .psRevlvl l, .psMix m]) :
    (c.afterSetter i).afterSetter j = (c.afterSetter j).afterSetter i := by
  simp only [List.mem_cons, List.not_mem_nil, or_false] at hi hj
  rcases hi with rfl | rfl | rfl | rfl <;> rcases hj with rfl | rfl | rfl | rfl <;> rfl

/-- `PS_APPLY` ends with the derivation of `CUR` (42_preset_scaler.md R85). -/
theorem exists_exec_psApply_eq_rederive (p : Half) (s : State) : ∃ u : State, exec (.psApply p) s = .next u.rederive :=
  ⟨_, rfl⟩

/-- Settles O39: after `PS_APPLY` both lists act on the controls alone, and there their setters commute. -/
theorem restoreOrderDoesNotMatter : Obligations.RestoreOrderDoesNotMatter := by
  intro p d m g l s is hperm
  obtain ⟨u, happly⟩ := exists_exec_psApply_eq_rederive p s
  have hsetters : ∀ i ∈ [Instr.psDecay d, .psIngain g, .psRevlvl l, .psMix m], i.opcode ∈ setterOpcodes := by
    simp [setterOpcodes, Instr.opcode]
  have hcontrols := hperm.foldl_eq' (f := Controls.afterSetter)
    (fun i hi j hj c => afterSetter_comm c d m g l (hperm.mem_iff.1 hi) (hperm.mem_iff.1 hj)) u.ctl
  rw [stateRestore, runInstrs_cons _ happly, runInstrs_cons _ happly, runInstrs_setters_rederive hsetters,
    runInstrs_setters_rederive fun i hi => hsetters i (hperm.mem_iff.1 hi), hcontrols]

end Sys2Proof.Machine

/-! ### Proofs: encodings and values (30_encoding.md R52)

An encoding is the word of its fields (`fieldsWord_fields`); its value keeps the fields, and `pack` puts them back. -/

namespace Sys2Proof.Machine

/-! #### From an encoding to its value and back -/

/-- A word is put together from its sign, its exponent field and its fraction field. -/
theorem fieldsWord_fields (w : F32) : fieldsWord w.msb (expField w).toNat (fracField w).toNat = w := by
  have hw := w.isLt
  refine BitVec.eq_of_toNat_eq ?_
  rw [fieldsWord_toNat _ (expField w).isLt (fracField w).isLt, expField, fracField, BitVec.extractLsb'_toNat,
    BitVec.extractLsb'_toNat, Nat.shiftRight_eq_div_pow, Nat.shiftRight_zero, BitVec.msb_eq_decide]
  rcases Nat.lt_or_ge w.toNat (2 ^ 31) with hsign | hsign
  · rw [decide_eq_false (by omega), Bool.toNat_false]
    omega
  · rw [decide_eq_true (by omega), Bool.toNat_true]
    omega

theorem magBits_of_lt {k : Nat} (h : k < 2 ^ 23) : magBits k = k := if_pos h

/-- A normal number has its exponent field and its fraction back. -/
theorem magBits_normal {f : Nat} (hf : f < 2 ^ 23) (x : Nat) :
    magBits ((2 ^ 23 + f) * 2 ^ x) = (x + 1) * 2 ^ 23 + f := by
  have hlarge : ¬(2 ^ 23 + f) * 2 ^ x < 2 ^ 23 :=
    Nat.not_lt.2 ((Nat.le_add_right _ f).trans (Nat.le_mul_of_pos_right _ (Nat.two_pow_pos x)))
  have hlog : ((2 ^ 23 + f) * 2 ^ x).log2 = 23 + x := by
    rw [Nat.log2_eq_iff (by omega), Nat.add_right_comm, Nat.pow_add, Nat.pow_add]
    exact ⟨Nat.mul_le_mul_right _ (by omega), Nat.mul_lt_mul_of_pos_right (by omega) (Nat.two_pow_pos x)⟩
  simp only [magBits, if_neg hlarge, hlog, Nat.add_sub_cancel_left, Nat.mul_div_cancel _ (Nat.two_pow_pos x)]

/-- Encoding the value of fields that are no NaN's gives their word back. -/
theorem pack_toVal_fieldsWord (neg : Bool) {e f : Nat} (he : e < 256) (hf : f < 2 ^ 23) (hnan : e = 255 → f = 0) :
    pack (toVal (fieldsWord neg e f)) = fieldsWord neg e f := by
  rw [toVal_fieldsWord neg he hf]
  split
  next hinf =>
    rw [if_pos (hnan hinf), hinf, hnan hinf]
    rfl
  next =>
    split
    next hzero => rw [pack_num, magBits_of_lt hf, fieldsWord, hzero, Nat.zero_mul, Nat.zero_add]
    next hnormal => rw [pack_num, magBits_normal hf, Nat.sub_add_cancel (Nat.pos_of_ne_zero hnormal), fieldsWord]

/-! #### NaN encodings -/

/-- A NaN encoding has all ones as its exponent and a fraction that is not zero (30_encoding.md R52). -/
theorem isNaN_iff {w : F32} : isNaN w = true ↔ expField w = 0xFF#8 ∧ fracField w ≠ 0#23 := by
  simp only [isNaN, Bool.and_eq_true, beq_iff_eq, bne_iff_ne]

theorem pack_toVal {w : F32} (h : isNaN w = false) : pack (toVal w) = w := by
  have hnan : (expField w).toNat = 255 → (fracField w).toNat = 0 := by
    intro hexp
    by_contra hfrac
    have : isNaN w = true := isNaN_iff.2 ⟨BitVec.eq_of_toNat_eq hexp, fun hzero => hfrac (congrArg BitVec.toNat hzero)⟩
    exact Bool.false_ne_true (h.symm.trans this)
  have hpack := pack_toVal_fieldsWord w.msb (expField w).isLt (fracField w).isLt hnan
  rwa [fieldsWord_fields] at hpack

theorem isNaN_iff_toVal_eq_nan {w : F32} : isNaN w = true ↔ toVal w = .nan := by
  constructor
  · intro h
    obtain ⟨hexp, hfrac⟩ := isNaN_iff.1 h
    rw [toVal, if_pos hexp, if_neg hfrac]
  · intro h
    by_contra hnot
    exact toVal_ne_nan (Bool.eq_false_iff.2 hnot) h

theorem expField_or (v w : F32) : expField (v ||| w) = expField v ||| expField w := BitVec.extractLsb'_or

theorem fracField_or (v w : F32) : fracField (v ||| w) = fracField v ||| fracField w := BitVec.extractLsb'_or

theorem expField_nanOf (w : Word) : expField (nanOf w) = 0xFF#8 := by
  rw [nanOf, expField_or, expField_or, show expField 0x7F800000#32 = BitVec.allOnes 8 from rfl, BitVec.or_allOnes,
    BitVec.allOnes_or]
  rfl

/-- The NaN behind arbitrary bits keeps their fraction unless it is zero. -/
theorem fracField_nanOf (w : Word) : fracField (nanOf w) = if fracField w = 0#23 then 1#23 else fracField w := by
  rw [nanOf, fracField_or, fracField_or, show fracField 0x7F800000#32 = 0#23 from rfl, BitVec.or_zero]
  split
  next hzero => rw [hzero]; rfl
  next => exact BitVec.or_zero

theorem isNaN_nanOf (w : Word) : isNaN (nanOf w) = true := by
  refine isNaN_iff.2 ⟨expField_nanOf w, ?_⟩
  rw [fracField_nanOf]
  split
  · decide
  · assumption

/-- Every NaN encoding is the free encoding behind itself (93_implementation_defined.md row 9). -/
theorem nanOf_of_isNaN {w : F32} (h : isNaN w = true) : nanOf w = w := by
  obtain ⟨hexp, hfrac⟩ := isNaN_iff.1 h
  have hmsb : (nanOf w).msb = w.msb := by
    rw [nanOf, if_neg hfrac, BitVec.or_zero, BitVec.msb_or, show (0x7F800000#32).msb = false from rfl, Bool.or_false]
  rw [← fieldsWord_fields (nanOf w), hmsb, expField_nanOf, fracField_nanOf, if_neg hfrac, ← hexp, fieldsWord_fields]

/-- Settles O55: the fields come back from the value, and a NaN has all ones as its exponent. -/
theorem encodingsAndValuesCorrespond : Obligations.EncodingsAndValuesCorrespond :=
  ⟨fun _ => pack_toVal, fun neg _ => toVal_pack_num neg, fun _ => isNaN_iff_toVal_eq_nan, fun _ => nanOf_of_isNaN,
    fun w => isNaN_iff_toVal_eq_nan.1 (isNaN_nanOf w)⟩

end Sys2Proof.Machine

/-! ### Proofs: the half-band filters (40_halfband.md)

A push is pinned slot by slot (`pushed_push`), and the model's window and tap sums are the spec's (`tapSum_eq_specSum`).
Every sum and product is a value binary32 can hold (`Rounded`), so a result register keeps it, and adding a zero to it
changes at most the sign of a zero. -/

namespace Sys2Proof.Machine

/-! #### The rings -/

/-- What the statements ask of a push, the model's push does. -/
theorem pushed_push (r : Ring) (v : F32) : Pushed r v (r.push v) := by
  constructor
  · rw [Ring.push_pos, BitVec.toNat_add]
    rfl
  · intro i h
    simp only [Ring.push_buf, Vector.getElem_set, eq_comm]

/-- Settles O25: the write and the cursor of a push, slot by slot. -/
theorem pushWritesThenAdvances : Obligations.PushWritesThenAdvances := pushed_push

/-- The model's cursor arithmetic modulo 64 reads the slot of the spec's formula (40_halfband.md R62). -/
theorem Ring.win_eq_windowSample (r : Ring) (k : Nat) : r.win k = windowSample r k := by
  have hslot : (r.pos - 39#6 + BitVec.ofNat 6 k).toNat = (r.pos.toNat + 25 + k) % 64 := by
    rw [BitVec.toNat_add, BitVec.toNat_sub, BitVec.toNat_ofNat, BitVec.toNat_ofNat]
    omega
  simp only [Ring.win, Ring.slot, windowSample, hslot]

/-- The window after the two pushes of a decimation: 37 old samples, then the two inputs (40_halfband.md R64). -/
theorem win_decimateRing (r : Ring) (x0 x1 : F32) {k : Nat} (h : k < 39) :
    (decimateRing r x0 x1).win k = if k = 38 then x1 else if k = 37 then x0 else r.win (k + 2) := by
  rw [decimateRing, Ring.win_push _ _ h]
  split
  next => rfl
  next hlast => simp only [Ring.win_push r x0 (show k + 1 < 39 by omega), Nat.reduceEqDiff]

/-! #### The tap sums -/

theorem tapSum_eq_specSum (coeff : Nat → F32) (taps : List Nat) (r : Ring) :
    tapSum coeff taps r = specSum coeff taps r := by
  simp only [tapSum, specSum, Ring.win_eq_windowSample]

theorem fullTaps_eq : fullTaps = allK := by decide

theorem evenTaps_eq : evenTaps = evenK := by decide

theorem oddTaps_eq : oddTaps = oddK := by decide

theorem mem_allK {k : Nat} : k ∈ allK ↔ k < 39 := by
  rw [← fullTaps_eq]
  exact List.mem_range

theorem fTwo_eq : fTwo = whole false 2 := by decide +kernel

theorem decimateOut_eq (coeff : Nat → F32) (r : Ring) (x0 x1 : F32) :
    decimateOut coeff r x0 x1 = specSum coeff allK (decimateRing r x0 x1) := by
  rw [decimateOut, tapSum_eq_specSum, fullTaps_eq]

theorem interpolateOut0_eq (coeff : Nat → F32) (r : Ring) (y : F32) :
    interpolateOut0 coeff r y = fmul (specSum coeff evenK (r.push y)) (whole false 2) := by
  rw [interpolateOut0, tapSum_eq_specSum, evenTaps_eq, fTwo_eq]

theorem interpolateOut1_eq (coeff : Nat → F32) (r : Ring) (y : F32) :
    interpolateOut1 coeff r y = fmul (specSum coeff oddK (interpolateRing r y)) (whole false 2) := by
  rw [interpolateOut1, tapSum_eq_specSum, oddTaps_eq, fTwo_eq]

/-- Settles O28: the two pushes move samples 2 to 38 to the front of the window, and the sum reads nothing else. -/
theorem decimationForgetsOldSamples : Obligations.DecimationForgetsOldSamples := by
  intro coeff r q x0 x1 hagree
  refine tapSum_congr (fun _ _ => rfl) fun k hk => ?_
  have hk : k < 39 := List.mem_range.1 hk
  rw [win_decimateRing r x0 x1 hk, win_decimateRing q x0 x1 hk]
  split
  next => rfl
  next hlast =>
    split
    next => rfl
    next hprev => rw [Ring.win_eq_windowSample, Ring.win_eq_windowSample, hagree (k + 2) (by omega) (by omega)]

/-! #### Results binary32 can hold -/

/-- A value binary32 can hold: a representable number, an infinity or a NaN. -/
def Rounded (v : FVal) : Prop := ∀ neg mag, v = .num neg mag → Representable mag

theorem rounded_num_zero (neg : Bool) : Rounded (.num neg 0) := by
  rintro _ _ ⟨⟩
  exact ⟨by positivity, 0, 0, by decide, rfl⟩

theorem rounded_inf (neg : Bool) : Rounded (.inf neg) := fun _ _ h => nomatch h

theorem rounded_nan : Rounded .nan := fun _ _ h => nomatch h

theorem rounded_roundMag (neg : Bool) (n : Nat) {d : Nat} (hd : 0 < d) : Rounded (roundMag neg n d) := by
  rw [roundMag_eq]
  split
  next hlt =>
    rintro _ _ ⟨⟩
    exact representable_roundedMag hd hlt
  next => exact rounded_inf neg

/-- Every sum is rounded. -/
theorem rounded_fadd (x y : FVal) : Rounded (fadd x y) := by
  cases x with
  | nan =>
    rw [fadd_nan_left]
    exact rounded_nan
  | inf a =>
    cases y with
    | num => exact rounded_inf a
    | nan => exact rounded_nan
    | inf b =>
      rw [fadd]
      split
      · exact rounded_inf a
      · exact rounded_nan
  | num a x =>
    cases y with
    | inf b => exact rounded_inf b
    | nan => exact rounded_nan
    | num b y =>
      rw [fadd]
      split
      · exact rounded_num_zero _
      · exact rounded_roundMag _ _ Nat.one_pos

/-- Every product is rounded. -/
theorem rounded_fmul (x y : FVal) : Rounded (fmul x y) := by
  cases x with
  | nan =>
    rw [fmul_nan_left]
    exact rounded_nan
  | inf a =>
    cases y with
    | inf b => exact rounded_inf _
    | nan => exact rounded_nan
    | num b y =>
      rw [fmul]
      split
      · exact rounded_nan
      · exact rounded_inf _
  | num a x =>
    cases y with
    | nan => exact rounded_nan
    | inf b =>
      rw [fmul]
      split
      · exact rounded_nan
      · exact rounded_inf _
    | num b y =>
      rw [fmul_num]
      exact rounded_roundMag _ _ (Nat.two_pow_pos 149)

/-- A tap sum is `+0.0` or the last of its sums. -/
theorem rounded_specSum (coeff : Nat → F32) (ks : List Nat) (r : Ring) : Rounded (specSum coeff ks r) := by
  rw [← tapSum_eq_specSum]
  induction ks using List.reverseRecOn with
  | nil => exact rounded_num_zero false
  | append_singleton ks k =>
    rw [tapSum_append_singleton]
    exact rounded_fadd _ _

/-- A result register keeps a value binary32 can hold, whatever free encoding a NaN gets (log 5). -/
theorem Rounded.toVal_encodeAt {v : FVal} (h : Rounded v) (n : Nat) : toVal (encodeAt n v) = v := by
  cases v with
  | num neg mag => exact toVal_pack_num neg (h neg mag rfl)
  | inf neg => exact toVal_pack_inf neg
  | nan => exact isNaN_iff_toVal_eq_nan.1 (isNaN_nanOf _)

theorem toVal_encodeAt_decimateOut (n : Nat) (coeff : Nat → F32) (r : Ring) (x0 x1 : F32) :
    toVal (encodeAt n (decimateOut coeff r x0 x1)) = specSum coeff allK (decimateRing r x0 x1) := by
  rw [decimateOut_eq]
  exact (rounded_specSum _ _ _).toVal_encodeAt n

theorem toVal_encodeAt_interpolateOut0 (n : Nat) (coeff : Nat → F32) (r : Ring) (y : F32) :
    toVal (encodeAt n (interpolateOut0 coeff r y)) = fmul (specSum coeff evenK (r.push y)) (whole false 2) := by
  rw [interpolateOut0_eq]
  exact (rounded_fmul _ _).toVal_encodeAt n

theorem toVal_encodeAt_interpolateOut1 (n : Nat) (coeff : Nat → F32) (r : Ring) (y : F32) :
    toVal (encodeAt n (interpolateOut1 coeff r y)) =
      fmul (specSum coeff oddK (interpolateRing r y)) (whole false 2) := by
  rw [interpolateOut1_eq]
  exact (rounded_fmul _ _).toVal_encodeAt n

/-! #### `HB_DEC` and `HB_INT` on finite operands -/

/-- `HB_DEC` writes its channel's ring, `RES0` and the counter. -/
theorem exec_hbDec_of_finite (ch : Channel) {x0 x1 : F32} (s : State) (h0 : isFinite x0 = true)
    (h1 : isFinite x1 = true) : ∃ n, exec (.hbDec ch x0 x1) s = .next { s with
      hb := s.hb.put (downRing ch) (decimateRing (s.hb.get (downRing ch)) x0 x1)
      res0 := encodeAt s.freeCount (decimateOut Config.hbCoeff (s.hb.get (downRing ch)) x0 x1)
      freeCount := n } := by
  rw [exec, execHbDec, hbDec_of_finite _ _ _ (by rw [h0, h1]; rfl)]
  exact ⟨_, rfl⟩

/-- `HB_INT` writes its channel's ring, both result registers and the counter. -/
theorem exec_hbInt_of_finite (ch : Channel) {y : F32} (s : State) (h : isFinite y = true) :
    ∃ n0 n1, exec (.hbInt ch y) s = .next { s with
      hb := s.hb.put (upRing ch) (interpolateRing (s.hb.get (upRing ch)) y)
      res0 := encodeAt s.freeCount (interpolateOut0 Config.hbCoeff (s.hb.get (upRing ch)) y)
      res1 := encodeAt n0 (interpolateOut1 Config.hbCoeff (s.hb.get (upRing ch)) y)
      freeCount := n1 } := by
  rw [exec, execHbInt, hbInt_of_finite _ _ _ h]
  exact ⟨_, _, rfl⟩

/-- Settles O26: both pushes, and the sum over the ring they leave. -/
theorem hbDecPushesTwoAndReturnsTheFullSum : Obligations.HbDecPushesTwoAndReturnsTheFullSum := by
  intro ch x0 x1 s h0 h1
  obtain ⟨n, hexec⟩ := exec_hbDec_of_finite ch s h0 h1
  have hsum := toVal_encodeAt_decimateOut s.freeCount Config.hbCoeff (s.hb.get (downRing ch)) x0 x1
  cases ch <;> exact ⟨_, _, _, n, hexec, pushed_push _ _, pushed_push _ _, hsum⟩

/-- Settles O27: the even sum over the ring after the first push, the odd sum over the ring after the second. -/
theorem hbIntReturnsBothPhases : Obligations.HbIntReturnsBothPhases := by
  intro ch y s h
  obtain ⟨n0, n1, hexec⟩ := exec_hbInt_of_finite ch s h
  have heven := toVal_encodeAt_interpolateOut0 s.freeCount Config.hbCoeff (s.hb.get (upRing ch)) y
  have hodd := toVal_encodeAt_interpolateOut1 n0 Config.hbCoeff (s.hb.get (upRing ch)) y
  cases ch <;> exact ⟨_, _, _, _, n1, hexec, pushed_push _ _, pushed_push _ _, heven, hodd⟩

/-! #### Sums with stuffed slots -/

theorem SameButZeroSign.trans {x y z : FVal} (hxy : SameButZeroSign x y) (hyz : SameButZeroSign y z) :
    SameButZeroSign x z := by
  rcases hxy with rfl | ⟨a, b, rfl, rfl⟩
  · exact hyz
  · rcases hyz with rfl | ⟨_, c, -, rfl⟩
    · exact .inr ⟨a, b, rfl, rfl⟩
    · exact .inr ⟨a, c, rfl, rfl⟩

theorem units_zero (neg : Bool) : units neg 0 = 0 := by cases neg <;> rfl

theorem units_eq_zero_iff {neg : Bool} {mag : Nat} : units neg mag = 0 ↔ mag = 0 := by
  cases neg <;> simp

/-- The sign of a zero operand shows in a sum at most as the sign of a zero. -/
theorem SameButZeroSign.fadd_right {x y : FVal} (h : SameButZeroSign x y) (t : FVal) :
    SameButZeroSign (fadd x t) (fadd y t) := by
  rcases h with rfl | ⟨a, b, rfl, rfl⟩
  · exact .inl rfl
  · cases t with
    | nan | inf => exact .inl rfl
    | num c mag =>
      simp only [fadd, units_zero, zero_add]
      split
      · exact .inr ⟨_, _, rfl, rfl⟩
      · exact .inl rfl

/-- Adding a zero changes at most the sign of a zero: a number binary32 can hold is its own rounding. -/
theorem sameButZeroSign_fadd_zero {x : FVal} (hx : Rounded x) (neg : Bool) :
    SameButZeroSign x (fadd x (.num neg 0)) := by
  cases x with
  | nan | inf => exact .inl rfl
  | num a mag =>
    rw [fadd, units_zero, Int.add_zero]
    split
    next hzero =>
      rw [units_eq_zero_iff.1 hzero]
      exact .inr ⟨_, _, rfl, rfl⟩
    next hne =>
      left
      have hpos : 0 < mag := Nat.pos_of_ne_zero (mt units_eq_zero_iff.2 hne)
      have hsign : decide (units a mag < 0) = a := by
        cases a with
        | false => exact decide_eq_false (by rw [units_false]; omega)
        | true => exact decide_eq_true (by rw [units_true]; omega)
      have habs : (units a mag).natAbs = mag := by cases a <;> simp
      obtain ⟨hlt, m, e, hm, rfl⟩ := hx a mag rfl
      rw [hsign, habs]
      simpa using (roundMag_exact a m e Nat.one_pos hm hlt).symm

/-- The term of a stuffed slot is a zero. -/
theorem fmul_toVal_zero {w : F32} (h : isFinite w = true) : ∃ neg, fmul (toVal w) (toVal 0#32) = .num neg 0 := by
  obtain ⟨a, mag, hw⟩ := toVal_of_isFinite h
  refine ⟨a ^^ false, ?_⟩
  rw [hw, show toVal 0#32 = .num false 0 from rfl, fmul_num, Nat.mul_zero]
  exact roundMag_zero _ (Nat.two_pow_pos 149)

theorem specSum_append_singleton (coeff : Nat → F32) (ks : List Nat) (k : Nat) (r : Ring) :
    specSum coeff (ks ++ [k]) r =
      fadd (specSum coeff ks r) (fmul (toVal (coeff k)) (toVal (windowSample r k))) := by
  rw [← tapSum_eq_specSum, ← tapSum_eq_specSum, tapSum_append_singleton, Ring.win_eq_windowSample]

/-- Leaving out taps whose slots are stuffed changes a sum at most in the sign of a zero (40_halfband.md R68). -/
theorem specSum_filter_sameButZeroSign {coeff : Nat → F32} {r : Ring} (p : Nat → Bool) (ks : List Nat)
    (hfinite : ∀ k ∈ ks, isFinite (coeff k) = true) (hstuffed : ∀ k ∈ ks, p k = false → windowSample r k = 0#32) :
    SameButZeroSign (specSum coeff (ks.filter p) r) (specSum coeff ks r) := by
  induction ks using List.reverseRecOn with
  | nil => exact .inl rfl
  | append_singleton ks k ih =>
    have hmem : k ∈ ks ++ [k] := List.mem_append_right _ List.mem_cons_self
    have hinit := ih (fun j hj => hfinite j (List.mem_append_left _ hj))
      fun j hj => hstuffed j (List.mem_append_left _ hj)
    rw [List.filter_append, specSum_append_singleton]
    cases hp : p k with
    | true =>
      rw [List.filter_singleton, hp, cond_true, specSum_append_singleton]
      exact hinit.fadd_right _
    | false =>
      obtain ⟨neg, hterm⟩ := fmul_toVal_zero (hfinite k hmem)
      rw [List.filter_singleton, hp, cond_false, List.append_nil, hstuffed k hmem hp, hterm]
      exact hinit.trans (sameButZeroSign_fadd_zero (rounded_specSum _ _ _) neg)

theorem evenK_eq_filter : evenK = allK.filter (· % 2 == 0) := by decide

theorem oddK_eq_filter : oddK = allK.filter (· % 2 == 1) := by decide

/-- Settles O29: each phase leaves out the taps of the stuffed slots. -/
theorem phaseSumsAreFullSumsOnAStuffedRing : Obligations.PhaseSumsAreFullSumsOnAStuffedRing := by
  intro coeff r hcoeff
  have hfinite : ∀ k ∈ allK, isFinite (coeff k) = true := fun k hk => hcoeff k (mem_allK.1 hk)
  constructor
  · intro hodd
    rw [evenK_eq_filter]
    refine specSum_filter_sameButZeroSign _ allK hfinite fun k hk hskip => hodd k (mem_allK.1 hk) ?_
    have := beq_eq_false_iff_ne.1 hskip
    omega
  · intro heven
    rw [oddK_eq_filter]
    refine specSum_filter_sameButZeroSign _ allK hfinite fun k hk hskip => heven k (mem_allK.1 hk) ?_
    have := beq_eq_false_iff_ne.1 hskip
    omega

end Sys2Proof.Machine

/-! ### Proofs: the Work Area commands (41_work_area.md R76 to R80)

Under the invariant the model's effective address is the statements' `addressOf`, so `WA_RD`, `WA_WR` and `WA_ADV` are the
laws of their primitive at that address. `nextPow2` is `2 ^ Nat.clog 2`, and the Galois connection of `Nat.clog` says that
this is the least power of two that reaches its argument. -/

namespace Sys2Proof.Machine

/-! #### Reading and writing one sample -/

theorem WorkArea.Inv.toNat_addressOf {w : WorkArea} (h : w.Inv) (off : Int) : (addressOf w off).toNat = w.ea off := by
  rw [← h.ea_eq_addressOf, Int.toNat_natCast]

theorem WorkArea.Inv.eq_addressOf_iff {w : WorkArea} (h : w.Inv) (off : Int) {a : Nat} :
    (a : Int) = addressOf w off ↔ a = w.ea off := by
  rw [← h.ea_eq_addressOf, Int.natCast_inj]

theorem WorkArea.Inv.rr_eq {w : WorkArea} (h : w.Inv) (off : Int) :
    w.rr off = scaled16 (w.read (addressOf w off).toNat) := by
  rw [WorkArea.rr, h.toNat_addressOf]

/-- A sample is no NaN, so its result draws no free encoding. -/
theorem State.withRes0Val_scaled16 (s : State) (q : Half) :
    s.withRes0Val (scaled16 q) = { s with res0 := encodeAt s.freeCount (scaled16 q) } := by
  rw [State.withRes0Val, scaled16_eq, nanDraws_eq_zero FVal.noConfusion, Nat.add_zero]

/-- Settles O19: the sample is encoded without loss, and it draws no free NaN. -/
theorem waRdReturnsTheScaledSample : Obligations.WaRdReturnsTheScaledSample := by
  intro off s hinv
  refine ⟨_, ?_, toVal_encodeAt_scaled16 s.freeCount _⟩
  rw [exec_waRd_eq, zextImm, hinv.rr_eq, State.withRes0Val_scaled16]

/-- What `WA_WR` of a number leaves (41_work_area.md R78). -/
theorem exec_waWr_num {off : Half} {v : F32} {neg : Bool} {mag : Nat} (s : State) (hv : toVal v = .num neg mag) :
    exec (.waWr off v) s =
      .next { s with wa := { s.wa with
        ram := s.wa.ram.write (s.wa.ea off.toNat) (BitVec.ofInt 16 (storedSample neg mag)) } } := by
  rw [exec_waWr_of_wellFormed s (isFinite_of_toVal_eq hv), WorkArea.wr, hv, quant16_num neg (representable_of_toVal_eq hv)]
  rfl

/-- Settles O20: one write of the stored sample into a RAM of canonical form. -/
theorem waWrStoresTheTruncatedSample : Obligations.WaWrStoresTheTruncatedSample := by
  intro off v neg mag s hinv hv
  have hwf : s.wa.ram.wf = true := by
    obtain ⟨-, -, -, -, hwf, -⟩ := hinv
    exact hwf
  obtain ⟨hlow, hhigh⟩ := storedSample_mem neg mag
  refine ⟨_, exec_waWr_num s hv, fun a => ?_⟩
  rw [Ram.read_write _ _ _ hwf, apply_ite BitVec.toInt, toInt_ofInt_half hlow hhigh]
  exact if_congr (hinv.eq_addressOf_iff off.toNat).symm rfl rfl

/-! #### Moving the base -/

/-- Settles O22: the base becomes the effective address of `n`. -/
theorem waAdvMovesTheBase : Obligations.WaAdvMovesTheBase := by
  intro n s hinv
  refine ⟨BitVec.ofNat 16 (s.wa.ea n.toNat), rfl, ?_⟩
  rw [BitVec.toNat_ofNat, Nat.mod_eq_of_lt (s.wa.ea_lt n.toNat)]
  zify
  exact hinv.ea_eq_addressOf n.toNat

/-! #### The size of the Work Area -/

/-- `nextpow2` is the least power of two that reaches its argument (00_scope.md R10). -/
theorem nextPow2_eq_two_pow_clog (n : Nat) : nextPow2 n = 2 ^ Nat.clog 2 n := by
  unfold nextPow2
  split
  next hle => rw [Nat.clog_of_right_le_one hle, Nat.pow_zero]
  next hgt =>
    have habove : n - 1 < 2 ^ ((n - 1).log2 + 1) := Nat.lt_log2_self
    have hbelow : 2 ^ (n - 1).log2 ≤ n - 1 := Nat.log2_self_le (by omega)
    have hlow : (n - 1).log2 < Nat.clog 2 n := (Nat.lt_clog_iff_pow_lt Nat.one_lt_two).2 (by omega)
    have hhigh : Nat.clog 2 n ≤ (n - 1).log2 + 1 := Nat.clog_le_of_le_pow (by omega)
    rw [le_antisymm hhigh hlow]

/-- A 16-bit number of bytes needs at most `2 ^ 15` samples (41_work_area.md R74). -/
theorem clog_samples_le (bytes : Half) : Nat.clog 2 (max ((bytes.toNat + 1) / 2) 1) ≤ 15 := by
  have hbytes := bytes.isLt
  exact Nat.clog_le_of_le_pow (by omega)

theorem sizeFor_half (bytes : Half) : sizeFor bytes.toNat = 2 ^ Nat.clog 2 (max ((bytes.toNat + 1) / 2) 1) := by
  rw [sizeFor, nextPow2_eq_two_pow_clog, min_eq_left]
  exact Nat.pow_le_pow_right Nat.two_pos ((clog_samples_le bytes).trans (by decide : 15 ≤ 16))

/-- Settles O23: the size is `2 ^ Nat.clog 2` of the number of samples; the mask follows from the invariant of a resized
Work Area. -/
theorem waResizeClearsToTheLeastPowerOfTwo : Obligations.WaResizeClearsToTheLeastPowerOfTwo := by
  intro bytes s
  obtain ⟨-, -, hmask, -⟩ := WorkArea.inv_resized bytes.toNat
  have hsize : (resized bytes.toNat).size = 2 ^ Nat.clog 2 (max ((bytes.toNat + 1) / 2) 1) := sizeFor_half bytes
  rw [hsize] at hmask
  exact ⟨_, resized bytes.toNat, rfl, hsize, Nat.le_pow_clog Nat.one_lt_two _, fun _ => Nat.clog_le_of_le_pow,
    Nat.pow_le_pow_right Nat.two_pos (clog_samples_le bytes), hmask, rfl, resized_read _⟩

end Sys2Proof.Machine

/-! ### Proofs: the parameter scaler (42_preset_scaler.md R81 to R86)

`Scale` encodes quotients that are exact, `Derive` encodes products and clamped products, and binary32 holds all of them,
so the encodings lose nothing. A list of setters acts on the controls one after the other, and derives `CUR` from what they
leave if one of its setters derives it, so two setters can be swapped because their effects on the controls can. -/

namespace Sys2Proof.Machine

/-! #### `Scale` and `Derive` -/

/-- Settles O30: the gain fields are scaled raw gains, the others are copied. -/
theorem scaleIsExact : Obligations.ScaleIsExact := by
  intro p
  simp only [scale, toVal_gainOf, and_self]

/-- A gain register keeps a value binary32 can hold (log 6). -/
theorem Rounded.toVal_pack {v : FVal} (h : Rounded v) : toVal (pack v) = v := by
  cases v with
  | num neg mag => exact toVal_pack_num neg (h neg mag rfl)
  | inf neg => exact toVal_pack_inf neg
  | nan => exact isNaN_iff_toVal_eq_nan.1 (isNaN_nanOf _)

theorem fFour_eq : fFour = whole false 4 := by decide +kernel

theorem neg_f0995_eq : fneg f0995 = toVal 0xBF7EB852#32 := by decide +kernel

/-- The decay scale is the formula of the rule (44_parameter_controller.md R102, R103). -/
theorem decayScale_eq_wallScale (d w : FVal) : decayScale d w = wallScale d w := rfl

theorem toVal_wallGain (d w : F32) :
    toVal (wallGain d w) = fclamp (fmul (toVal w) (wallScale (toVal d) (toVal w))) (toVal 0xBF7EB852#32)
      (toVal 0x3F7EB852#32) := by
  rw [wallGain, decayScale_eq_wallScale, neg_f0995_eq, f0995]
  exact toVal_pack_fclamp (rounded_fmul _ _).toVal_pack (by decide +kernel) (by decide +kernel)

theorem toVal_inputGain (g b : F32) : toVal (inputGain g b) = fmul (toVal b) (fmul (toVal g) (whole false 2)) := by
  rw [inputGain, fTwo_eq]
  exact (rounded_fmul _ _).toVal_pack

theorem toVal_outputGain (l b : F32) : toVal (outputGain l b) = fmul (toVal b) (fmul (toVal l) (whole false 4)) := by
  rw [outputGain, fFour_eq]
  exact (rounded_fmul _ _).toVal_pack

/-- Settles O31: the five gains of `derive_eq` by their values. -/
theorem deriveComputesFiveGains : Obligations.DeriveComputesFiveGains := by
  intro b d g l
  exact ⟨_, _, _, _, _, derive_eq b d g l, toVal_wallGain d b.vWALL, toVal_inputGain g b.vLIN,
    toVal_inputGain g b.vRIN, toVal_outputGain l b.vLOUT, toVal_outputGain l b.vROUT⟩

/-! #### `PS_APPLY` and `PS_DERIVE` -/

/-- The selected index is the signed operand clamped to 0 .. 5, never rejected. -/
theorem presetOf_val (idx : Half) : ((presetOf idx).val : Int) = max 0 (min 5 idx.toInt) := by
  obtain ⟨hlow, hhigh⟩ := iclamp_mem (n := idx.toInt) (show (0 : Int) ≤ 5 by decide)
  have hval : (presetOf idx).val = (iclamp idx.toInt 0 5).toNat % 6 := rfl
  rw [hval, ← iclamp_eq_max_min _ (by decide)]
  omega

/-- Settles O32: the next state is `State.applyPreset_eq`, its Work Area a resized one. -/
theorem psApplySelectsThePreset : Obligations.PsApplySelectsThePreset := by
  intro idx s
  obtain ⟨-, -, hmask, -⟩ := WorkArea.inv_resized (Config.presetTable (presetOf idx)).sizeBytes.toNat
  exact ⟨presetOf idx, resized (Config.presetTable (presetOf idx)).sizeBytes.toNat,
    congrArg Host.Outcome.next (State.applyPreset_eq Config.params (presetOf idx) s), presetOf_val idx, rfl, hmask, rfl,
    resized_read _⟩

/-- Deriving `CUR` again changes nothing (10_state.md R21). -/
theorem Coherent.rederive_eq_self {s : State} (h : Coherent s) : s.rederive = s := by
  obtain ⟨-, hcur⟩ := h
  rw [State.rederive_eq, ← hcur]

/-- Settles O33: `PS_DERIVE` is the derivation of `CUR`, which a coherent state holds already. -/
theorem psDeriveRecomputesCur : Obligations.PsDeriveRecomputesCur := by
  intro s
  exact ⟨congrArg Host.Outcome.next s.rederive_eq, fun h => congrArg Host.Outcome.next h.rederive_eq_self⟩

/-! #### Lists of setters -/

/-- Whether a setter derives `CUR`: not with a NaN operand (44_parameter_controller.md R104), and never that of the mix
(R108). -/
def setterDerives : Instr → Bool
  | .psDecay v => !isNaN v
  | .psIngain v => !isNaN v
  | .psRevlvl v => !isNaN v
  | _ => false

/-- The state a number of setters leave: the controls they leave, and `CUR` derived from them if one of the setters
derives it. -/
def State.afterSetters (s : State) (c : Controls) (derives : Bool) : State :=
  if derives then (s.withCtl c).rederive else s.withCtl c

/-- What a setter of a control that `CUR` depends on does in any state: with a NaN the control keeps its old value. -/
theorem State.setter_eq_afterSetters (s : State) (v old : F32) (set : F32 → Controls) (hold : set old = s.ctl) :
    (if isNaN v then s else (s.withCtl (set (clamp01 v))).rederive) =
      s.afterSetters (set (storedControl v old)) (!isNaN v) := by
  unfold storedControl
  cases isNaN v with
  | true =>
    simp only [if_true, hold]
    rfl
  | false => rfl

/-- What the setter of the mix does in any state. -/
theorem State.setter_mix_eq_afterSetters (s : State) (v : F32) :
    (if isNaN v then s else s.withCtl { s.ctl with mix := clamp01 v }) =
      s.afterSetters { s.ctl with mix := storedControl v s.ctl.mix } false := by
  unfold storedControl
  cases isNaN v <;> rfl

/-- A setter in any state, `CUR` derived or not. -/
theorem exec_setter {i : Instr} (hi : i.opcode ∈ setterOpcodes) (s : State) :
    exec i s = .next (s.afterSetters (s.ctl.afterSetter i) (setterDerives i)) := by
  cases i with
  | psDecay v =>
    rw [exec_psDecay_eq]
    exact congrArg Host.Outcome.next
      (s.setter_eq_afterSetters v s.ctl.decay (fun x => { s.ctl with decay := x }) rfl)
  | psIngain v =>
    rw [exec_psIngain_eq]
    exact congrArg Host.Outcome.next
      (s.setter_eq_afterSetters v s.ctl.ingain (fun x => { s.ctl with ingain := x }) rfl)
  | psRevlvl v =>
    rw [exec_psRevlvl_eq]
    exact congrArg Host.Outcome.next
      (s.setter_eq_afterSetters v s.ctl.revlvl (fun x => { s.ctl with revlvl := x }) rfl)
  | psMix v =>
    rw [exec_psMix_eq]
    exact congrArg Host.Outcome.next (s.setter_mix_eq_afterSetters v)
  | _ => exact absurd hi (by simp [setterOpcodes, Instr.opcode])

/-- A list of setters in any state: once one of them has derived `CUR`, the others keep it derived. -/
theorem runInstrs_setters {is : List Instr} (his : ∀ i ∈ is, i.opcode ∈ setterOpcodes) (s : State) :
    runInstrs is s = .next (s.afterSetters (is.foldl Controls.afterSetter s.ctl) (is.any setterDerives)) := by
  induction is generalizing s with
  | nil => rfl
  | cons i rest ih =>
    obtain ⟨hi, hrest⟩ := List.forall_mem_cons.1 his
    rw [runInstrs_cons rest (exec_setter hi s), List.foldl_cons, List.any_cons]
    cases setterDerives i with
    | true => exact runInstrs_setters_rederive hrest (s.withCtl (s.ctl.afterSetter i))
    | false => exact ih hrest (s.withCtl (s.ctl.afterSetter i))

theorem runInstrs_setter_pair {i j : Instr} (hi : i.opcode ∈ setterOpcodes) (hj : j.opcode ∈ setterOpcodes) (s : State) :
    runInstrs [i, j] s =
      .next (s.afterSetters ((s.ctl.afterSetter i).afterSetter j) (setterDerives i || setterDerives j)) := by
  rw [runInstrs_setters (by simp [hi, hj]), ← Bool.or_false (setterDerives j)]
  rfl

theorem storedControl_storedControl (v old : F32) : storedControl v (storedControl v old) = storedControl v old := by
  unfold storedControl
  cases isNaN v <;> rfl

/-- A setter stores the same value the second time. -/
theorem afterSetter_afterSetter (c : Controls) (i : Instr) : (c.afterSetter i).afterSetter i = c.afterSetter i := by
  cases i with
  | psDecay v => simp only [Controls.afterSetter, storedControl_storedControl]
  | psIngain v => simp only [Controls.afterSetter, storedControl_storedControl]
  | psRevlvl v => simp only [Controls.afterSetter, storedControl_storedControl]
  | psMix v => simp only [Controls.afterSetter, storedControl_storedControl]
  | _ => rfl

/-- Settles O38: both lists leave the same controls, and derive `CUR` alike. -/
theorem settersCommuteAndRepeatHarmlessly : Obligations.SettersCommuteAndRepeatHarmlessly := by
  intro d g l m s
  have hsetter : ∀ i ∈ [Instr.psDecay d, .psIngain g, .psRevlvl l, .psMix m], i.opcode ∈ setterOpcodes := by
    simp [setterOpcodes, Instr.opcode]
  refine ⟨fun i hi => ?_, fun i hi j hj => ?_⟩
  · rw [runInstrs_setter_pair (hsetter i hi) (hsetter i hi), runInstrs_cons [] (exec_setter (hsetter i hi) s),
      afterSetter_afterSetter, Bool.or_self, runInstrs]
  · rw [runInstrs_setter_pair (hsetter i hi) (hsetter j hj), runInstrs_setter_pair (hsetter j hj) (hsetter i hi),
      afterSetter_comm s.ctl d m g l hi hj, Bool.or_comm]

end Sys2Proof.Machine

/-! ### Proofs: the reverb tick (43_reverb_tick.md R89 to R98, R100)

A tick is eight writes and one advance. A read of an address that no earlier write of the tick has touched sees the
prior tick's sample, and a sample whose address no later write of the tick has stays as it was written. -/

namespace Sys2Proof.Machine

/-! #### The Work Area invariant and its base after an advance -/

theorem WorkArea.Inv.wf {w : WorkArea} (h : w.Inv) : w.ram.wf = true := by
  obtain ⟨-, -, -, -, hwf, -⟩ := h
  exact hwf

theorem WorkArea.Inv.toNat_base_advance {w : WorkArea} (h : w.Inv) (n : Nat) :
    (w.advance n).base.toNat = (w.base.toNat + n) % w.size := by
  rw [WorkArea.advance_base, BitVec.toNat_ofNat, Nat.mod_eq_of_lt (w.ea_lt n)]
  zify
  exact h.ea_eq_addressOf n

/-- Settles O49: the advance takes off the base what the offset adds, modulo the size. -/
theorem priorOutputIsWhereTheLastTickWrote : Obligations.PriorOutputIsWhereTheLastTickWrote := by
  intro w m h
  zify
  calc ((w.advance 1).ea ((m.toNat : Int) - 1) : Int)
      = (((w.base.toNat + 1) % w.size : Nat) + ((m.toNat : Int) - 1)) % w.size := by
        rw [(h.advance 1).ea_eq_addressOf, addressOf, h.toNat_base_advance, WorkArea.advance_size]
    _ = ((w.base.toNat : Int) + 1 + ((m.toNat : Int) - 1)) % w.size := by
        rw [Int.natCast_emod, Int.emod_add_emod, Int.natCast_add, Int.natCast_one]
    _ = addressOf w m.toNat := by rw [addressOf, add_add_sub_cancel]
    _ = w.ea m.toNat := (h.ea_eq_addressOf _).symm

/-! #### Lists of writes -/

/-- The Work Area after a list of writes, each an offset and a value. -/
def WorkArea.stores (w : WorkArea) (l : List (Half × FVal)) : WorkArea :=
  l.foldl (fun u p => u.wr p.1.toNat p.2) w

/-- The addresses of a list of writes. -/
def WorkArea.addresses (w : WorkArea) (l : List (Half × FVal)) : List Nat := l.map fun p => w.ea p.1.toNat

theorem WorkArea.stores_cons (w : WorkArea) (p : Half × FVal) (l : List (Half × FVal)) :
    w.stores (p :: l) = (w.wr p.1.toNat p.2).stores l := rfl

theorem WorkArea.addresses_cons (w : WorkArea) (p : Half × FVal) (l : List (Half × FVal)) :
    w.addresses (p :: l) = w.ea p.1.toNat :: w.addresses l := rfl

theorem WorkArea.stores_ea (w : WorkArea) (l : List (Half × FVal)) (off : Int) : (w.stores l).ea off = w.ea off := by
  induction l generalizing w with
  | nil => rfl
  | cons p l ih => rw [WorkArea.stores_cons, ih, WorkArea.wr_ea]

theorem WorkArea.wf_stores {w : WorkArea} (h : w.ram.wf = true) (l : List (Half × FVal)) :
    (w.stores l).ram.wf = true := by
  induction l generalizing w with
  | nil => exact h
  | cons p l ih => exact ih (WorkArea.wf_wr h _ _)

/-- A sample that no write addresses is kept. -/
theorem WorkArea.read_stores_of_notMem {w : WorkArea} (h : w.ram.wf = true) {l : List (Half × FVal)} {a : Nat}
    (ha : a ∉ w.addresses l) : (w.stores l).read a = w.read a := by
  induction l generalizing w with
  | nil => rfl
  | cons p l ih =>
    rw [WorkArea.addresses_cons, List.mem_cons, not_or] at ha
    obtain ⟨hp, hl⟩ := ha
    rw [WorkArea.stores_cons, ih (WorkArea.wf_wr h _ _) hl, WorkArea.read_wr h, if_neg hp]

/-- Where no two writes share an address, each of them leaves its sample. -/
theorem WorkArea.read_stores_of_mem {w : WorkArea} (h : w.ram.wf = true) {l : List (Half × FVal)}
    (hnodup : (w.addresses l).Nodup) : ∀ p ∈ l, (w.stores l).read (w.ea p.1.toNat) = quant16 p.2 := by
  induction l generalizing w with
  | nil => exact fun p hp => absurd hp List.not_mem_nil
  | cons q l ih =>
    rw [WorkArea.addresses_cons, List.nodup_cons] at hnodup
    obtain ⟨hq, hl⟩ := hnodup
    have hwf := WorkArea.wf_wr h q.1.toNat q.2
    refine List.forall_mem_cons.2 ⟨?_, ih hwf hl⟩
    rw [WorkArea.stores_cons, WorkArea.read_stores_of_notMem hwf hq, WorkArea.read_wr h, if_pos rfl]

/-- A read of an address that no write has touched sees the sample before the writes. -/
theorem WorkArea.rr_stores_of_notMem {w : WorkArea} (h : w.ram.wf = true) {l : List (Half × FVal)} {off : Int}
    (hoff : w.ea off ∉ w.addresses l) : (w.stores l).rr off = w.rr off := by
  rw [WorkArea.rr, WorkArea.stores_ea, WorkArea.read_stores_of_notMem h hoff, WorkArea.rr]

/-! #### What a tick leaves -/

/-- The offsets a tick writes, in the order of its writes (43_reverb_tick.md R90, R92, R94, R95). -/
def tickOffsets (c : Scaled) : List Half :=
  [c.mLSAME, c.mRSAME, c.mLDIFF, c.mRDIFF, c.mLAPF1, c.mRAPF1, c.mLAPF2, c.mRAPF2]

theorem tickWrites_eq_map (c : Scaled) (w : WorkArea) :
    tickWrites c w = (tickOffsets c).map fun m => w.ea m.toNat := rfl

/-- A tick is writes at its offsets and then one advance (43_reverb_tick.md R98): what holds before it and is kept by
these writes holds where the advance starts. -/
theorem tick_wa_induction {P Q : WorkArea → Prop} (c : Scaled) (xL xR : FVal) {w : WorkArea}
    (hwr : ∀ u, ∀ m ∈ tickOffsets c, ∀ v, P u → P (u.wr m.toNat v)) (hadv : ∀ u, P u → Q (u.advance 1)) (h : P w) :
    Q (tick c xL xR w).wa := by
  have hreflections : P (reflections c xL xR w) :=
    hwr _ c.mRDIFF (by simp [tickOffsets]) _ <| hwr _ c.mLDIFF (by simp [tickOffsets]) _ <|
      hwr _ c.mRSAME (by simp [tickOffsets]) _ <| hwr _ c.mLSAME (by simp [tickOffsets]) _ h
  exact hadv _ <| hwr _ c.mRAPF2 (by simp [tickOffsets]) _ <| hwr _ c.mLAPF2 (by simp [tickOffsets]) _ <|
    hwr _ c.mRAPF1 (by simp [tickOffsets]) _ <| hwr _ c.mLAPF1 (by simp [tickOffsets]) _ hreflections

/-- A tick advances the base by one (43_reverb_tick.md R96). -/
theorem tick_wa_base (c : Scaled) (xL xR : FVal) (w : WorkArea) : (tick c xL xR w).wa.base = (w.advance 1).base :=
  tick_wa_induction (P := fun u => u.ea = w.ea) (Q := fun u => u.base = (w.advance 1).base) c xL xR
    (fun _ _ _ _ hu => hu) (fun u hu => by rw [WorkArea.advance_base, WorkArea.advance_base, hu]) rfl

theorem WorkArea.Inv.toNat_base_tick {w : WorkArea} (h : w.Inv) (c : Scaled) (xL xR : FVal) :
    (tick c xL xR w).wa.base.toNat = (w.base.toNat + 1) % w.size := by
  rw [tick_wa_base, h.toNat_base_advance]

/-- A tick changes no sample outside its write addresses. -/
theorem tick_wa_read_of_notMem {w : WorkArea} (h : w.ram.wf = true) (c : Scaled) (xL xR : FVal) {a : Nat}
    (ha : a ∉ tickWrites c w) : (tick c xL xR w).wa.read a = w.read a := by
  rw [tickWrites_eq_map, List.mem_map, not_exists] at ha
  refine tick_wa_induction (P := fun u => u.ram.wf = true ∧ u.ea = w.ea ∧ u.read a = w.read a)
    (Q := fun u => u.read a = w.read a) c xL xR
    (fun u m hm v ⟨hwf, hea, hread⟩ => ⟨WorkArea.wf_wr hwf _ _, hea, ?_⟩) (fun u ⟨_, _, hread⟩ => hread) ⟨h, rfl, rfl⟩
  have hne : a ≠ u.ea m.toNat := fun heq => ha m ⟨hm, by rw [heq, hea]⟩
  rw [WorkArea.read_wr hwf, if_neg hne, hread]

/-- Both outputs of a tick are products (43_reverb_tick.md R97). -/
theorem tick_outputs_eq_fmul (c : Scaled) (xL xR : FVal) (w : WorkArea) :
    ∃ bL bR, (tick c xL xR w).outL = fmul bL (toVal c.vLOUT) ∧ (tick c xL xR w).outR = fmul bR (toVal c.vROUT) :=
  ⟨_, _, by rw [tick], by rw [tick]⟩

/-- The outputs of a tick are values binary32 can hold. -/
theorem rounded_tick_outputs (c : Scaled) (xL xR : FVal) (w : WorkArea) :
    Rounded (tick c xL xR w).outL ∧ Rounded (tick c xL xR w).outR := by
  obtain ⟨bL, bR, hL, hR⟩ := tick_outputs_eq_fmul c xL xR w
  rw [hL, hR]
  exact ⟨rounded_fmul _ _, rounded_fmul _ _⟩

/-- `RV_TICK` writes the Work Area, both result registers and the counter (43_reverb_tick.md R100). -/
theorem exec_rvTick_of_finite {xL xR : F32} (s : State) (hL : isFinite xL = true) (hR : isFinite xR = true) :
    ∃ n0 n1, exec (.rvTick xL xR) s = .next { s with
      wa := (tick s.cur (toVal xL) (toVal xR) s.wa).wa
      res0 := encodeAt s.freeCount (tick s.cur (toVal xL) (toVal xR) s.wa).outL
      res1 := encodeAt n0 (tick s.cur (toVal xL) (toVal xR) s.wa).outR
      freeCount := n1 } := by
  rw [exec_rvTick_of_wellFormed s (Bool.and_eq_true_iff.2 ⟨hL, hR⟩)]
  generalize tick s.cur (toVal xL) (toVal xR) s.wa = tk
  exact ⟨_, _, rfl⟩

/-- Settles O46: the result registers hold the outputs exactly, and the Work Area is the tick's. -/
theorem rvTickWritesEightSamplesAndAdvances : Obligations.RvTickWritesEightSamplesAndAdvances := by
  intro xL xR s h hL hR
  obtain ⟨houtL, houtR⟩ := rounded_tick_outputs s.cur (toVal xL) (toVal xR) s.wa
  obtain ⟨hsize, hmask⟩ := tick_wa_size_mask s.cur (toVal xL) (toVal xR) s.wa
  obtain ⟨n0, n1, hexec⟩ := exec_rvTick_of_finite s hL hR
  exact ⟨_, _, _, hexec, houtL.toVal_encodeAt _, houtR.toVal_encodeAt _, hsize, hmask,
    h.toNat_base_tick _ _ _, fun a ha => tick_wa_read_of_notMem h.wf _ _ _ ha⟩

/-! #### One stage of a tick

The stages of the model are the formulas of the statements over the reads they make. -/

theorem combSum_eq_fourCombs (c : Scaled) (m1 m2 m3 m4 : Half) (w : WorkArea) :
    combSum c m1 m2 m3 m4 w = fourCombs c (w.rr m1.toNat) (w.rr m2.toNat) (w.rr m3.toNat) (w.rr m4.toNat) := rfl

theorem reflect_eq_wr (c : Scaled) (inp : FVal) (d m : Half) (w : WorkArea) :
    reflect (toVal c.vWALL) (toVal c.vIIR) inp d m w =
      w.wr m.toNat (onePole c inp (w.rr d.toNat) (w.rr ((m.toNat : Int) - 1))) := rfl

theorem allpassArea_eq_wr (g x : FVal) (m d : Half) (w : WorkArea) :
    allpassArea g x m d w = w.wr m.toNat (apWritten g x (w.rr ((m.toNat : Int) - d.toNat))) := rfl

theorem allpassOut_eq_apOutput {w : WorkArea} (h : w.ram.wf = true) (g x : FVal) (m d : Half) :
    allpassOut g x m d w = apOutput g x (w.rr ((m.toNat : Int) - d.toNat)) := by
  rw [allpassOut, allpassArea_eq_wr, WorkArea.rr_wr_self h, apOutput]

/-! #### The ordered tick -/

theorem WorkArea.Inv.rr_eq_sampleAt {w : WorkArea} (h : w.Inv) (off : Int) : w.rr off = sampleAt w off := by
  rw [h.rr_eq, scaled16_eq, sampleAt]

/-- One write of the model is one `Stored` of the statements (20_memory.md R34). -/
theorem WorkArea.Inv.stored_wr {w : WorkArea} (h : w.Inv) (off : Int) (v : FVal) : Stored w off v (w.wr off v) := by
  refine ⟨rfl, rfl, rfl, fun a => ?_⟩
  have hscale : f32768 = whole false 32768 := f32768_eq
  rw [WorkArea.read_wr h.wf, quant16, hscale]
  exact if_congr (h.eq_addressOf_iff off).symm rfl rfl

/-- A reflection is one write of the one-pole value over its two reads (43_reverb_tick.md R90, R92). -/
theorem WorkArea.Inv.exists_reflect {w : WorkArea} (h : w.Inv) (c : Scaled) (inp : FVal) (d m : Half) :
    ∃ u, u.Inv ∧ reflect (toVal c.vWALL) (toVal c.vIIR) inp d m w = u ∧
      Stored w m.toNat (onePole c inp (sampleAt w d.toNat) (sampleAt w ((m.toNat : Int) - 1))) u := by
  refine ⟨_, h.wr _ _, reflect_eq_wr c inp d m w, ?_⟩
  rw [h.rr_eq_sampleAt, h.rr_eq_sampleAt]
  exact h.stored_wr _ _

/-- An all-pass stage is one write, and its output reads that write back (43_reverb_tick.md R94, R95). -/
theorem WorkArea.Inv.exists_allpass {w : WorkArea} (h : w.Inv) (g x : FVal) (m d : Half) :
    ∃ u, u.Inv ∧ allpassArea g x m d w = u ∧
      Stored w m.toNat (apWritten g x (sampleAt w ((m.toNat : Int) - d.toNat))) u ∧
      allpassOut g x m d w = fadd (fmul (sampleAt u m.toNat) g) (sampleAt w ((m.toNat : Int) - d.toNat)) := by
  refine ⟨_, h.wr _ _, allpassArea_eq_wr g x m d w, ?_, ?_⟩
  · rw [h.rr_eq_sampleAt]
    exact h.stored_wr _ _
  · rw [allpassOut, allpassArea_eq_wr, (h.wr _ _).rr_eq_sampleAt, h.rr_eq_sampleAt]

theorem WorkArea.Inv.combSum_eq {w : WorkArea} (h : w.Inv) (c : Scaled) (m1 m2 m3 m4 : Half) :
    combSum c m1 m2 m3 m4 w =
      fourCombs c (sampleAt w m1.toNat) (sampleAt w m2.toNat) (sampleAt w m3.toNat) (sampleAt w m4.toNat) := by
  simp only [combSum_eq_fourCombs, h.rr_eq_sampleAt]

/-- Settles O48: the areas are named one after the other, each by its stage. -/
theorem tickIsItsStepsInOrder : Obligations.TickIsItsStepsInOrder := by
  intro c xL xR w h
  obtain ⟨w1, h1, e1, s1⟩ := h.exists_reflect c (fmul xL (toVal c.vLIN)) c.dLSAME c.mLSAME
  obtain ⟨w2, h2, e2, s2⟩ := h1.exists_reflect c (fmul xR (toVal c.vRIN)) c.dRSAME c.mRSAME
  obtain ⟨w3, h3, e3, s3⟩ := h2.exists_reflect c (fmul xL (toVal c.vLIN)) c.dRDIFF c.mLDIFF
  obtain ⟨w4, h4, e4, s4⟩ := h3.exists_reflect c (fmul xR (toVal c.vRIN)) c.dLDIFF c.mRDIFF
  have hcL := h4.combSum_eq c c.mLCOMB1 c.mLCOMB2 c.mLCOMB3 c.mLCOMB4
  have hcR := h4.combSum_eq c c.mRCOMB1 c.mRCOMB2 c.mRCOMB3 c.mRCOMB4
  obtain ⟨w5, h5, e5, s5, o5⟩ := h4.exists_allpass (toVal c.vAPF1) _ c.mLAPF1 c.dAPF1
  obtain ⟨w6, h6, e6, s6, o6⟩ := h5.exists_allpass (toVal c.vAPF1) _ c.mRAPF1 c.dAPF1
  obtain ⟨w7, h7, e7, s7, o7⟩ := h6.exists_allpass (toVal c.vAPF2) _ c.mLAPF2 c.dAPF2
  obtain ⟨w8, h8, e8, s8, o8⟩ := h7.exists_allpass (toVal c.vAPF2) _ c.mRAPF2 c.dAPF2
  obtain ⟨hsize, hmask⟩ := tick_wa_size_mask c xL xR w
  have hbase := h.toNat_base_tick c xL xR
  refine ⟨w1, w2, w3, w4, w5, w6, w7, w8, s1, s2, s3, s4, s5, s6, s7, s8, ⟨hsize, hmask, hbase, fun a => ?_⟩, ?_, ?_⟩
  all_goals simp only [tick, reflections, e1, e2, e3, e4, hcL, hcR, e5, o5, e6, o6, e7, o7, e8, o8,
    WorkArea.advance_read]

/-! #### The tick without aliasing -/

/-- The eight writes of a tick with every value computed from the samples before the tick (43_reverb_tick.md R90 to
R95). -/
def priorStores (c : Scaled) (xL xR : FVal) (w : WorkArea) : List (Half × FVal) :=
  let lin := fmul xL (toVal c.vLIN)
  let rin := fmul xR (toVal c.vRIN)
  let cL := fourCombs c (w.rr c.mLCOMB1.toNat) (w.rr c.mLCOMB2.toNat) (w.rr c.mLCOMB3.toNat) (w.rr c.mLCOMB4.toNat)
  let cR := fourCombs c (w.rr c.mRCOMB1.toNat) (w.rr c.mRCOMB2.toNat) (w.rr c.mRCOMB3.toNat) (w.rr c.mRCOMB4.toNat)
  let dL1 := w.rr ((c.mLAPF1.toNat : Int) - c.dAPF1.toNat)
  let dR1 := w.rr ((c.mRAPF1.toNat : Int) - c.dAPF1.toNat)
  [(c.mLSAME, onePole c lin (w.rr c.dLSAME.toNat) (w.rr ((c.mLSAME.toNat : Int) - 1))),
   (c.mRSAME, onePole c rin (w.rr c.dRSAME.toNat) (w.rr ((c.mRSAME.toNat : Int) - 1))),
   (c.mLDIFF, onePole c lin (w.rr c.dRDIFF.toNat) (w.rr ((c.mLDIFF.toNat : Int) - 1))),
   (c.mRDIFF, onePole c rin (w.rr c.dLDIFF.toNat) (w.rr ((c.mRDIFF.toNat : Int) - 1))),
   (c.mLAPF1, apWritten (toVal c.vAPF1) cL dL1),
   (c.mRAPF1, apWritten (toVal c.vAPF1) cR dR1),
   (c.mLAPF2, apWritten (toVal c.vAPF2) (apOutput (toVal c.vAPF1) cL dL1)
      (w.rr ((c.mLAPF2.toNat : Int) - c.dAPF2.toNat))),
   (c.mRAPF2, apWritten (toVal c.vAPF2) (apOutput (toVal c.vAPF1) cR dR1)
      (w.rr ((c.mRAPF2.toNat : Int) - c.dAPF2.toNat)))]

/-- The Work Area after the first `k` of these writes. -/
def priorArea (c : Scaled) (xL xR : FVal) (w : WorkArea) (k : Nat) : WorkArea :=
  w.stores ((priorStores c xL xR w).take k)

theorem addresses_priorStores (c : Scaled) (xL xR : FVal) (w : WorkArea) :
    w.addresses (priorStores c xL xR w) = tickWrites c w := rfl

theorem priorArea_succ {c : Scaled} {xL xR v : FVal} {w : WorkArea} {k : Nat} {m : Half}
    (hstore : (priorStores c xL xR w)[k]? = some (m, v)) :
    priorArea c xL xR w (k + 1) = (priorArea c xL xR w k).wr m.toNat v := by
  rw [priorArea, List.take_add_one, hstore, WorkArea.stores, List.foldl_append]
  rfl

section
variable {c : Scaled} (xL xR : FVal) {w : WorkArea} (hwf : w.ram.wf = true) (h : NoAliasing c w)
include hwf h

/-- Without aliasing, no read of the tick sees one of its writes (20_memory.md R41). -/
theorem rr_priorArea (k : Nat) {off : Int} (hoff : w.ea off ∈ tickReads c w) :
    (priorArea c xL xR w k).rr off = w.rr off := by
  obtain ⟨-, hreads⟩ := h
  refine WorkArea.rr_stores_of_notMem hwf fun hmem => hreads _ hoff ?_
  rw [WorkArea.addresses, List.map_take] at hmem
  rw [← addresses_priorStores c xL xR]
  exact List.mem_of_mem_take hmem

theorem reflect_priorArea {inp : FVal} {k : Nat} {d m : Half}
    (hstore : (priorStores c xL xR w)[k]? = some (m, onePole c inp (w.rr d.toNat) (w.rr ((m.toNat : Int) - 1))))
    (hd : w.ea d.toNat ∈ tickReads c w) (hm : w.ea ((m.toNat : Int) - 1) ∈ tickReads c w) :
    reflect (toVal c.vWALL) (toVal c.vIIR) inp d m (priorArea c xL xR w k) = priorArea c xL xR w (k + 1) := by
  rw [reflect_eq_wr, rr_priorArea xL xR hwf h k hd, rr_priorArea xL xR hwf h k hm, priorArea_succ hstore]

theorem combSum_priorArea (k : Nat) {m1 m2 m3 m4 : Half} (h1 : w.ea m1.toNat ∈ tickReads c w)
    (h2 : w.ea m2.toNat ∈ tickReads c w) (h3 : w.ea m3.toNat ∈ tickReads c w) (h4 : w.ea m4.toNat ∈ tickReads c w) :
    combSum c m1 m2 m3 m4 (priorArea c xL xR w k) =
      fourCombs c (w.rr m1.toNat) (w.rr m2.toNat) (w.rr m3.toNat) (w.rr m4.toNat) := by
  rw [combSum_eq_fourCombs, rr_priorArea xL xR hwf h k h1, rr_priorArea xL xR hwf h k h2,
    rr_priorArea xL xR hwf h k h3, rr_priorArea xL xR hwf h k h4]

theorem allpass_priorArea {g x : FVal} {k : Nat} {m d : Half}
    (hstore : (priorStores c xL xR w)[k]? = some (m, apWritten g x (w.rr ((m.toNat : Int) - d.toNat))))
    (hm : w.ea ((m.toNat : Int) - d.toNat) ∈ tickReads c w) :
    allpassArea g x m d (priorArea c xL xR w k) = priorArea c xL xR w (k + 1) ∧
      allpassOut g x m d (priorArea c xL xR w k) = apOutput g x (w.rr ((m.toNat : Int) - d.toNat)) := by
  have hwfk : (priorArea c xL xR w k).ram.wf = true := WorkArea.wf_stores hwf _
  rw [allpassArea_eq_wr, allpassOut_eq_apOutput hwfk, rr_priorArea xL xR hwf h k hm, priorArea_succ hstore]
  exact ⟨rfl, rfl⟩

/-- The four reflections are the first four writes (43_reverb_tick.md R90, R92). -/
theorem reflections_eq_priorArea : reflections c xL xR w = priorArea c xL xR w 4 := by
  have e1 : reflect _ _ (fmul xL (toVal c.vLIN)) c.dLSAME c.mLSAME w = priorArea c xL xR w 1 :=
    reflect_priorArea xL xR hwf h (k := 0) rfl (by simp [tickReads]) (by simp [tickReads])
  have e2 : reflect _ _ (fmul xR (toVal c.vRIN)) c.dRSAME c.mRSAME _ = priorArea c xL xR w 2 :=
    reflect_priorArea xL xR hwf h rfl (by simp [tickReads]) (by simp [tickReads])
  have e3 : reflect _ _ (fmul xL (toVal c.vLIN)) c.dRDIFF c.mLDIFF _ = priorArea c xL xR w 3 :=
    reflect_priorArea xL xR hwf h rfl (by simp [tickReads]) (by simp [tickReads])
  have e4 : reflect _ _ (fmul xR (toVal c.vRIN)) c.dLDIFF c.mRDIFF _ = priorArea c xL xR w 4 :=
    reflect_priorArea xL xR hwf h rfl (by simp [tickReads]) (by simp [tickReads])
  simp only [reflections, e1, e2, e3, e4]

end

/-- Settles O47: stage by stage the tick makes the writes of `priorStores`, and no two of them share an address. -/
theorem tickWithoutAliasingSeesThePriorTick : Obligations.TickWithoutAliasingSeesThePriorTick := by
  intro c xL xR w hwf h
  have hreflections := reflections_eq_priorArea xL xR hwf h
  have hcL := combSum_priorArea xL xR hwf h 4 (m1 := c.mLCOMB1) (m2 := c.mLCOMB2) (m3 := c.mLCOMB3)
    (m4 := c.mLCOMB4) (by simp [tickReads]) (by simp [tickReads]) (by simp [tickReads]) (by simp [tickReads])
  have hcR := combSum_priorArea xL xR hwf h 4 (m1 := c.mRCOMB1) (m2 := c.mRCOMB2) (m3 := c.mRCOMB3)
    (m4 := c.mRCOMB4) (by simp [tickReads]) (by simp [tickReads]) (by simp [tickReads]) (by simp [tickReads])
  obtain ⟨e5, o5⟩ := allpass_priorArea xL xR hwf h (k := 4) (m := c.mLAPF1) rfl (by simp [tickReads])
  obtain ⟨e6, o6⟩ := allpass_priorArea xL xR hwf h (k := 5) (m := c.mRAPF1) rfl (by simp [tickReads])
  obtain ⟨e7, o7⟩ := allpass_priorArea xL xR hwf h (k := 6) (m := c.mLAPF2) rfl (by simp [tickReads])
  obtain ⟨e8, o8⟩ := allpass_priorArea xL xR hwf h (k := 7) (m := c.mRAPF2) rfl (by simp [tickReads])
  have hstored : ∀ p ∈ priorStores c xL xR w, (priorArea c xL xR w 8).read (w.ea p.1.toNat) = quant16 p.2 := by
    obtain ⟨hnodup, -⟩ := h
    rw [← addresses_priorStores c xL xR] at hnodup
    exact WorkArea.read_stores_of_mem hwf hnodup
  simp only [tick, hreflections, hcL, hcR, e5, o5, e6, o6, e7, o7, e8, o8, WorkArea.advance_read, Nat.reduceAdd,
    true_and]
  simpa only [priorStores, List.forall_mem_cons, List.not_mem_nil, false_implies, implies_true, and_true] using hstored

end Sys2Proof.Machine

/-! ### Proofs: the parameter controller (44_parameter_controller.md R101 to R110)

A setter stores the clamped operand and derives `CUR`, whose five computed gains each depend on one control. The order
of the decay scale comes from the operations: rounding keeps the order of exact values (`fle_roundMag`), so a sum does,
and so does a product with a number that is not negative; the decay scale is made of these. -/

namespace Sys2Proof.Machine

/-! #### The setters -/

theorem toVal_zero : toVal 0#32 = .num false 0 := by decide +kernel

theorem fOne_eq : fOne = .num false (2 ^ 149) := by decide +kernel

theorem clampedTo01_clamp01 (v : F32) : ClampedTo01 v (clamp01 v) := by
  rw [ClampedTo01, ← toVal_zero, ← fOne_eq]
  rfl

section

/-! A setter tests its operand for a NaN, which leaves the state, before anything else (44_parameter_controller.md
R104). -/

variable {v : F32} (h : isNaN v = false) (s : State)
include h

theorem exec_psDecay_of_not_isNaN : exec (.psDecay v) s = .next { s with
    ctl := { s.ctl with decay := clamp01 v }, cur := derive s.base (clamp01 v) s.ctl.ingain s.ctl.revlvl } :=
  if_neg (Bool.eq_false_iff.1 h)

theorem exec_psIngain_of_not_isNaN : exec (.psIngain v) s = .next { s with
    ctl := { s.ctl with ingain := clamp01 v }, cur := derive s.base s.ctl.decay (clamp01 v) s.ctl.revlvl } :=
  if_neg (Bool.eq_false_iff.1 h)

theorem exec_psRevlvl_of_not_isNaN : exec (.psRevlvl v) s = .next { s with
    ctl := { s.ctl with revlvl := clamp01 v }, cur := derive s.base s.ctl.decay s.ctl.ingain (clamp01 v) } :=
  if_neg (Bool.eq_false_iff.1 h)

theorem exec_psMix_of_not_isNaN : exec (.psMix v) s = .next { s with ctl := { s.ctl with mix := clamp01 v } } :=
  if_neg (Bool.eq_false_iff.1 h)

end

section

variable {s : State} (h : Coherent s)
include h

/-- Deriving a derived `CUR` from another decay changes its wall gain only (42_preset_scaler.md R83). -/
theorem Coherent.derive_decay (d : F32) :
    derive s.base d s.ctl.ingain s.ctl.revlvl = { s.cur with vWALL := wallGain d s.base.vWALL } := by
  obtain ⟨-, hcur⟩ := h
  rw [hcur, derive_eq, derive_eq]

/-- Deriving a derived `CUR` from another input gain changes its two input gains only (42_preset_scaler.md R83). -/
theorem Coherent.derive_ingain (g : F32) : derive s.base s.ctl.decay g s.ctl.revlvl =
    { s.cur with vLIN := inputGain g s.base.vLIN, vRIN := inputGain g s.base.vRIN } := by
  obtain ⟨-, hcur⟩ := h
  rw [hcur, derive_eq, derive_eq]

/-- Deriving a derived `CUR` from another level changes its two output gains only (42_preset_scaler.md R83). -/
theorem Coherent.derive_revlvl (l : F32) : derive s.base s.ctl.decay s.ctl.ingain l =
    { s.cur with vLOUT := outputGain l s.base.vLOUT, vROUT := outputGain l s.base.vROUT } := by
  obtain ⟨-, hcur⟩ := h
  rw [hcur, derive_eq, derive_eq]

end

/-- Settles O34: the decay is stored clamped, and of a derived `CUR` only the wall gain depends on it. -/
theorem psDecaySetsTheDecay : Obligations.PsDecaySetsTheDecay := by
  intro v s
  refine ⟨fun h => if_pos h, fun h =>
    ⟨clamp01 v, clampedTo01_clamp01 v, exec_psDecay_of_not_isNaN h s, fun hs =>
      ⟨wallGain (clamp01 v) s.base.vWALL, ?_⟩⟩⟩
  rw [exec_psDecay_of_not_isNaN h, hs.derive_decay]

/-- Settles O35: the input gain is stored clamped, and of a derived `CUR` only the input gains depend on it. -/
theorem psIngainSetsTheInputGain : Obligations.PsIngainSetsTheInputGain := by
  intro v s
  refine ⟨fun h => if_pos h, fun h =>
    ⟨clamp01 v, clampedTo01_clamp01 v, exec_psIngain_of_not_isNaN h s, fun hs =>
      ⟨inputGain (clamp01 v) s.base.vLIN, inputGain (clamp01 v) s.base.vRIN, ?_⟩⟩⟩
  rw [exec_psIngain_of_not_isNaN h, hs.derive_ingain]

/-- Settles O36: the level is stored clamped, and of a derived `CUR` only the output gains depend on it. -/
theorem psRevlvlSetsTheReverbLevel : Obligations.PsRevlvlSetsTheReverbLevel := by
  intro v s
  refine ⟨fun h => if_pos h, fun h =>
    ⟨clamp01 v, clampedTo01_clamp01 v, exec_psRevlvl_of_not_isNaN h s, fun hs =>
      ⟨outputGain (clamp01 v) s.base.vLOUT, outputGain (clamp01 v) s.base.vROUT, ?_⟩⟩⟩
  rw [exec_psRevlvl_of_not_isNaN h, hs.derive_revlvl]

/-- Settles O37: the mix is stored clamped, and `CUR` is not derived. -/
theorem psMixSetsTheMix : Obligations.PsMixSetsTheMix := by
  intro v s
  exact ⟨fun h => if_pos h, fun h =>
    ⟨clamp01 v, clampedTo01_clamp01 v, inUnit_clamp01 h, exec_psMix_of_not_isNaN h s⟩⟩

/-- Settles O41: one of the ranges of O42. -/
theorem wallGainStaysWithinBounds : Obligations.WallGainStaysWithinBounds := by
  intro s hs hlegal
  obtain ⟨-, -, hwall, -⟩ := gainsStayInTheirRanges s hs hlegal
  exact hwall

/-! #### Gains times exact factors -/

/-- A scaled raw gain times a small power of two is exact (44_parameter_controller.md R106, R107). -/
theorem fmul_exact16_two_pow (q : Half) {j : Nat} (hj : j ≤ 2) :
    fmul (exact16 q) (.num false (2 ^ (149 + j))) =
      .num (decide (q.toInt < 0)) (q.toInt.natAbs * 2 ^ (134 + j)) := by
  have hq := natAbs_toInt_le q
  have hlt : q.toInt.natAbs * 2 ^ (134 + j) < 2 ^ 277 :=
    (Nat.mul_le_mul hq (Nat.pow_le_pow_right (by decide) (Nat.add_le_add_left hj 134))).trans_lt (by decide +kernel)
  rw [exact16, fmul_num, Bool.xor_false,
    show q.toInt.natAbs * 2 ^ 134 * 2 ^ (149 + j) = q.toInt.natAbs * 2 ^ (134 + j) * 2 ^ 149 by ring]
  exact roundMag_exact _ _ _ (Nat.two_pow_pos 149) (by omega) hlt

/-- Settles O45: the controls 0.5 and 1.0 scale a gain by a power of two, which loses nothing. -/
theorem gainControlsScaleExactly : Obligations.GainControlsScaleExactly := by
  intro raw g hg
  have hnan : isNaN g = false :=
    Bool.eq_false_iff.2 fun h => FVal.noConfusion (hg.symm.trans (isNaN_iff_toVal_eq_nan.1 h))
  have hunity : fmul (toVal 0x3F000000#32) fTwo = .num false (2 ^ (149 + 0)) := by decide +kernel
  have hinDouble : fmul (toVal 0x3F800000#32) (whole false 2) = .num false (2 ^ (149 + 1)) := by decide +kernel
  have houtDouble : fmul (toVal 0x3F000000#32) (whole false 4) = .num false (2 ^ (149 + 1)) := by decide +kernel
  have houtQuadruple : fmul (toVal 0x3F800000#32) (whole false 4) = .num false (2 ^ (149 + 2)) := by decide +kernel
  refine ⟨?_, ?_, ?_, ?_⟩
  · rw [inputGain, hunity, hg, fmul_exact16_two_pow raw (by decide)]
    exact (congrArg pack hg.symm).trans (pack_toVal hnan)
  · rw [toVal_inputGain, hinDouble, hg, fmul_exact16_two_pow raw (by decide)]
  · rw [toVal_outputGain, houtDouble, hg, fmul_exact16_two_pow raw (by decide)]
  · rw [toVal_outputGain, houtQuadruple, hg, fmul_exact16_two_pow raw (by decide)]

/-! #### Rounding keeps the order -/

/-- Rounding does not fall below a number that binary32 can hold. -/
theorem le_roundedMag {n d k : Nat} (hd : 0 < d) (hk : Representable k) (h : k * d ≤ n) : k ≤ roundedMag n d := by
  by_contra hlt
  have hnear := distance_roundedMag_le (n := n) hd hk
  have hstep : (roundedMag n d + 1) * d ≤ k * d := Nat.mul_le_mul_right d (Nat.not_le.1 hlt)
  rw [distance_eq, distance_eq] at hnear
  rw [Nat.add_mul] at hstep
  omega

/-- A smaller exact value has no greater rounding: were it greater, each of the two would be the nearer one of its exact
value, and the exact values in the other order. -/
theorem roundedMag_mono {n m d : Nat} (hd : 0 < d) (hnm : n ≤ m) (hfin : roundedMag m d < 2 ^ 277) :
    roundedMag n d ≤ roundedMag m d := by
  have hbelow : n < (2 ^ 277 - 2 ^ 252) * d := by
    by_contra hover
    exact absurd hfin (Nat.not_lt.2 (le_roundedMag_of_le hd ((Nat.not_lt.1 hover).trans hnm)))
  have hn := distance_roundedMag_le (n := n) hd (representable_roundedMag hd hfin)
  have hm := distance_roundedMag_le (n := m) hd (representable_roundedMag hd (roundedMag_lt_of_lt hd hbelow))
  rcases hnm.eq_or_lt with rfl | hlt
  · exact le_rfl
  by_contra hgt
  have hstep : (roundedMag m d + 1) * d ≤ roundedMag n d * d := Nat.mul_le_mul_right d (Nat.not_le.1 hgt)
  rw [distance_eq, distance_eq] at hn hm
  rw [Nat.add_mul] at hstep
  omega

/-- The rounded values of two magnitudes have their order. -/
theorem fle_roundMag_of_le {n m d : Nat} (hd : 0 < d) (h : n ≤ m) :
    fle (roundMag false n d) (roundMag false m d) = true ∧ fle (roundMag true m d) (roundMag true n d) = true := by
  by_cases hfin : roundedMag m d < 2 ^ 277
  · have hle := roundedMag_mono hd h hfin
    simp only [roundMag_eq, if_pos hfin, if_pos (hle.trans_lt hfin)]
    exact ⟨decide_eq_true (by simpa using hle), decide_eq_true (by simpa using hle)⟩
  · simp only [roundMag_eq, if_neg hfin]
    split <;> exact ⟨rfl, rfl⟩

/-- Rounding keeps the order of exact values. -/
theorem fle_roundMag {a b : Bool} {n m d : Nat} (hd : 0 < d) (h : units a n ≤ units b m) :
    fle (roundMag a n d) (roundMag b m d) = true := by
  cases a with
  | false =>
    cases b with
    | false => exact (fle_roundMag_of_le hd (by simpa using h)).1
    | true =>
      obtain ⟨rfl, rfl⟩ : n = 0 ∧ m = 0 := by
        rw [units_false, units_true] at h
        omega
      rw [roundMag_zero _ hd, roundMag_zero _ hd]
      rfl
  | true =>
    cases b with
    | true => exact (fle_roundMag_of_le hd (by simpa using h)).2
    | false =>
      have hzero : fle (roundMag true n d) (roundMag true 0 d) = true := (fle_roundMag_of_le hd (Nat.zero_le n)).2
      have hpos : fle (roundMag false 0 d) (roundMag false m d) = true := (fle_roundMag_of_le hd (Nat.zero_le m)).1
      rw [roundMag_zero _ hd] at hzero hpos
      exact fle_trans (fle_trans hzero (by decide)) hpos

/-- A sum of two numbers is their exact sum rounded, the sign of a zero being one of its two. -/
theorem exists_fadd_num_eq (a b : Bool) (x y : Nat) :
    ∃ neg k, fadd (.num a x) (.num b y) = roundMag neg k 1 ∧ units neg k = units a x + units b y := by
  rw [fadd]
  split
  next hzero => exact ⟨a && b, 0, (roundMag_zero _ Nat.one_pos).symm, by rw [hzero, units_zero]⟩
  next => exact ⟨_, _, rfl, units_natAbs _⟩

section

variable {a b a' b' l h : Nat} {x y z : FVal} (hx : Between a b x) (hy : Between a' b' y) (hxy : fle x y = true)
include hx hy hxy

/-- Adding a number keeps the order. -/
theorem fle_fadd_left (hz : Between l h z) : fle (fadd z x) (fadd z y) = true := by
  obtain ⟨p, i, rfl, -⟩ := hx
  obtain ⟨q, j, rfl, -⟩ := hy
  obtain ⟨c, k, rfl, -⟩ := hz
  obtain ⟨m, u, hleft, hu⟩ := exists_fadd_num_eq c p k i
  obtain ⟨n, v, hright, hv⟩ := exists_fadd_num_eq c q k j
  have hle : units p i ≤ units q j := of_decide_eq_true hxy
  rw [hleft, hright]
  exact fle_roundMag Nat.one_pos (by omega)

/-- Subtracting a number keeps the order. -/
theorem fle_fsub_right (hz : Between l h z) : fle (fsub x z) (fsub y z) = true := by
  rw [fsub, fsub, fadd_comm x, fadd_comm y]
  exact fle_fadd_left hx hy hxy hz.fneg

/-- Multiplying by a number that is not negative keeps the order. -/
theorem fle_fmul_right (hz : Between 0 h z) : fle (fmul x z) (fmul y z) = true := by
  obtain ⟨p, i, rfl, -⟩ := hx
  obtain ⟨q, j, rfl, -⟩ := hy
  obtain ⟨c, k, rfl, hzero, -⟩ := hz
  have hle : units p i ≤ units q j := of_decide_eq_true hxy
  rw [fmul_num, fmul_num]
  refine fle_roundMag (Nat.two_pow_pos 149) ?_
  rw [units_xor_mul, units_xor_mul]
  exact mul_le_mul_of_nonneg_right hle (by simpa using hzero)

end

/-! #### The maximum scale -/

theorem representable_zero : Representable 0 := rounded_num_zero false _ _ rfl

/-- The number 1, in units of 2^−149. -/
theorem representable_one : Representable (2 ^ 149) := ⟨by decide +kernel, 1, 149, by decide, (Nat.one_mul _).symm⟩

theorem between_fHalf : Between 0 (2 ^ 148) fHalf := ⟨false, _, by decide +kernel, by decide, le_rfl⟩

theorem between_fOne : Between 0 (2 ^ 149) fOne := ⟨false, _, fOne_eq, by decide, le_rfl⟩

theorem between_fTwo : Between 0 (2 ^ 150) fTwo := ⟨false, _, by decide +kernel, by decide, le_rfl⟩

theorem fTen_eq : fTen = .num false (10 * 2 ^ 149) := by decide +kernel

theorem f099_eq : f099 = .num false (16609444 * 2 ^ 125) := by decide +kernel

theorem between_exact16 (q : Half) : Between (2 ^ 149) (32767 * 2 ^ 134) (exact16 q) := by
  rw [← toVal_gainOf]
  exact between_gainOf q

theorem fle_of_flt {x y : FVal} (h : flt x y = true) : fle x y = true := by
  rcases x with ⟨a, x⟩ | ⟨_ | _⟩ | _ <;> rcases y with ⟨b, y⟩ | ⟨_ | _⟩ | _ <;> simp_all [fle, flt]
  omega

/-- Of two numbers one is at most the other. -/
theorem fle_of_not_fle {a b a' b' : Nat} {x y : FVal} (hx : Between a b x) (hy : Between a' b' y)
    (h : fle x y = false) : fle y x = true := by
  obtain ⟨p, i, rfl, -⟩ := hx
  obtain ⟨q, j, rfl, -⟩ := hy
  exact decide_eq_true (le_of_not_ge (of_decide_eq_false h))

/-- A clamp does not answer less than what its value and its upper bound are at least. -/
theorem fle_fclamp {k v lo hi : FVal} (hv : fle k v = true) (hhi : fle k hi = true) :
    fle k (fclamp v lo hi) = true := by
  rcases fclamp_eq_or v lo hi with ⟨hlow, h⟩ | ⟨-, -, h⟩ | ⟨-, -, h⟩ <;> rw [h]
  · exact fle_trans hv (fle_of_flt hlow)
  · exact hhi
  · exact hv

/-- `0.99` over the magnitude of a raw gain is at least any number that times the magnitude is at most `0.99`. -/
theorem fle_fdiv_f099 {q : Half} {k : Nat} (hk : Representable k)
    (hq : k * (q.toInt.natAbs * 2 ^ 134) ≤ 16609444 * 2 ^ 125 * 2 ^ 149) :
    fle (.num false k) (fdiv f099 (fabs (exact16 q))) = true := by
  rw [f099_eq, exact16, fabs, fdiv]
  split
  · rw [if_neg (by decide)]
    rfl
  next hne =>
    have hle := le_roundedMag (Nat.pos_of_ne_zero hne) hk hq
    rw [roundMag_eq]
    split
    · exact decide_eq_true (by simpa using hle)
    · rfl

/-- The maximum scale is at least any number up to 10 that times the magnitude of the gain is at most `0.99`
(44_parameter_controller.md R102). -/
theorem fle_maxScale {q : Half} {k : Nat} (hk : Representable k)
    (hq : k * (q.toInt.natAbs * 2 ^ 134) ≤ 16609444 * 2 ^ 125 * 2 ^ 149) (hten : k ≤ 10 * 2 ^ 149) :
    fle (.num false k) (maxScale (exact16 q)) = true :=
  fle_fclamp (fle_fdiv_f099 hk hq) (by rw [fTen_eq]; exact decide_eq_true (by simpa using hten))

theorem f099_fle_maxScale (q : Half) : fle f099 (maxScale (exact16 q)) = true := by
  have hq : q.toInt.natAbs * 2 ^ 134 ≤ 2 ^ 149 := Nat.mul_le_mul_right _ (natAbs_toInt_le q)
  rw [f099_eq]
  exact fle_maxScale ⟨by decide +kernel, _, _, by decide, rfl⟩ (Nat.mul_le_mul_left _ hq) (by decide +kernel)

/-- Up to a wall gain of 0.99 the maximum scale is at least 1 (44_parameter_controller.md R110). -/
theorem fOne_fle_maxScale {q : Half} (hq : q.toInt.natAbs ≤ 32440) : fle fOne (maxScale (exact16 q)) = true := by
  rw [fOne_eq]
  refine fle_maxScale representable_one ?_ (by decide +kernel)
  calc 2 ^ 149 * (q.toInt.natAbs * 2 ^ 134) ≤ 2 ^ 149 * (32440 * 2 ^ 134) :=
        Nat.mul_le_mul_left _ (Nat.mul_le_mul_right _ hq)
    _ ≤ 16609444 * 2 ^ 125 * 2 ^ 149 := by decide +kernel

theorem maxScale_fle_fTen (q : Half) : fle (maxScale (exact16 q)) fTen = true := by
  obtain ⟨neg, k, hmax, -, hhigh⟩ := between_maxScale (between_exact16 q)
  rw [hmax, fTen_eq]
  exact decide_eq_true hhigh

/-! #### The decay scale -/

theorem decayScale_of_fle {d : FVal} (h : fle d fHalf = true) (w : FVal) : decayScale d w = fadd fHalf d := if_pos h

/-- How far a decay above 0.5 is on its way from 0.5 to 1 (44_parameter_controller.md R103). -/
def upperPart (d : FVal) : FVal := fmul (fsub d fHalf) fTwo

theorem decayScale_of_not_fle {d : FVal} (h : fle d fHalf = false) (w : FVal) :
    decayScale d w = fadd fOne (fmul (upperPart d) (fsub (maxScale w) fOne)) := if_neg (Bool.eq_false_iff.1 h)

theorem rounded_fsub (x y : FVal) : Rounded (fsub x y) := rounded_fadd _ _

/-- A product with 1 is the other factor, if binary32 can hold it. -/
theorem fOne_fmul {x : FVal} (hx : Rounded x) : fmul fOne x = x := by
  rw [fOne_eq]
  cases x with
  | nan => rfl
  | inf b => cases b <;> rfl
  | num b k =>
    obtain ⟨hlt, m, e, hm, rfl⟩ := hx b k rfl
    rw [fmul_num, Bool.false_xor, Nat.mul_comm]
    exact roundMag_exact b m e (Nat.two_pow_pos 149) hm hlt

/-- Settles O43: at 0 and 0.5 the scale is a closed sum, at 1 the way from 0.5 is 1. -/
theorem decayScaleEndPoints : Obligations.DecayScaleEndPoints := by
  intro raw
  have hzero : fadd fHalf (toVal 0#32) = toVal 0x3F000000#32 := by decide +kernel
  have hhalf : fadd fHalf (toVal 0x3F000000#32) = toVal 0x3F800000#32 := by decide +kernel
  have hone : upperPart (toVal 0x3F800000#32) = fOne := by decide +kernel
  refine ⟨?_, ?_, ?_, f099_fle_maxScale raw, maxScale_fle_fTen raw, by decide +kernel⟩
  · rw [decayScale_of_fle (by decide +kernel), hzero]
  · rw [decayScale_of_fle (by decide +kernel), hhalf]
  · rw [decayScale_of_not_fle (by decide +kernel), hone, fOne_fmul (rounded_fsub _ _)]
    rfl

/-! #### The order of the decay scale -/

section

variable {d e : FVal} (hd : Between 0 (2 ^ 149) d) (he : Between 0 (2 ^ 149) e)
include hd

theorem fle_fOne_of_between : fle d fOne = true := by
  obtain ⟨neg, k, rfl, -, hhigh⟩ := hd
  rw [fOne_eq]
  exact decide_eq_true hhigh

/-- The distance of a legal decay from 0.5 is a number. -/
theorem between_fsub_fHalf : Between (2 ^ 149) (2 ^ 149) (fsub d fHalf) :=
  hd.fsub representable_one representable_one between_fHalf (by decide +kernel) (by decide +kernel)

include he in
theorem upperPart_mono (hde : fle d e = true) : fle (upperPart d) (upperPart e) = true :=
  fle_fmul_right (between_fsub_fHalf hd) (between_fsub_fHalf he) (fle_fsub_right hd he hde between_fHalf) between_fTwo

/-- Above 0.5 the way from 0.5 is from 0 to 1. -/
theorem between_upperPart (h : fle d fHalf = false) : Between 0 (2 ^ 149) (upperPart d) := by
  have hhalf : Between 0 (2 ^ 149) fHalf := ⟨false, 2 ^ 148, by decide +kernel, by decide, by decide⟩
  have hlow : fle (.num true 0) (upperPart fHalf) = true := by decide +kernel
  have hhigh : fle (upperPart fOne) (.num false (2 ^ 149)) = true := by decide +kernel
  exact between_of_fle (fle_trans hlow (upperPart_mono hhalf hd (fle_of_not_fle hd between_fHalf h)))
    (fle_trans (upperPart_mono hd between_fOne (fle_fOne_of_between hd)) hhigh)

end

/-- Up to a wall gain of 0.99 the scale rises by 0 to 9 from its value at 0.5 to that at 1. -/
theorem between_maxScale_fsub_fOne {q : Half} (hq : q.toInt.natAbs ≤ 32440) :
    Between 0 (9 * 2 ^ 149) (fsub (maxScale (exact16 q)) fOne) := by
  have hmax := between_maxScale (between_exact16 q)
  have hten : Between 0 (10 * 2 ^ 149) fTen := ⟨false, _, fTen_eq, by decide, le_rfl⟩
  have hlow : fle (.num true 0) (fsub fOne fOne) = true := by decide +kernel
  have hhigh : fle (fsub fTen fOne) (.num false (9 * 2 ^ 149)) = true := by decide +kernel
  exact between_of_fle (fle_trans hlow (fle_fsub_right between_fOne hmax (fOne_fle_maxScale hq) between_fOne))
    (fle_trans (fle_fsub_right hmax hten (maxScale_fle_fTen q) between_fOne) hhigh)

section

variable {d e : FVal} {q : Half} (hd : Between 0 (2 ^ 149) d) (hdHalf : fle d fHalf = false)
  (hq : q.toInt.natAbs ≤ 32440)
include hd hdHalf hq

/-- Above 0.5 the scale exceeds 1 by a number that is not negative. -/
theorem between_rise : Between 0 (9 * 2 ^ 149) (fmul (upperPart d) (fsub (maxScale (exact16 q)) fOne)) := by
  have hnine : Representable (9 * 2 ^ 149) := ⟨by decide +kernel, _, _, by decide, rfl⟩
  exact (between_upperPart hd hdHalf).fmul representable_zero hnine (between_maxScale_fsub_fOne hq) (by simp)
    (by decide +kernel)

/-- Above 0.5 the decay scale is at least 1. -/
theorem fOne_fle_decayScale : fle fOne (decayScale d (exact16 q)) = true := by
  have hrise := between_rise hd hdHalf hq
  have hnonneg : fle (.num false 0) (fmul (upperPart d) (fsub (maxScale (exact16 q)) fOne)) = true := by
    obtain ⟨neg, k, hrise, hlow, -⟩ := hrise
    rw [hrise]
    exact decide_eq_true (by simpa using hlow)
  have hone : fle fOne (fadd fOne (.num false 0)) = true := by decide +kernel
  rw [decayScale_of_not_fle hdHalf]
  exact fle_trans hone (fle_fadd_left (between_num_false 0) hrise hnonneg between_fOne)

/-- Above 0.5 the decay scale does not fall as the decay rises. -/
theorem decayScale_mono_of_not_fle (he : Between 0 (2 ^ 149) e) (heHalf : fle e fHalf = false)
    (hde : fle d e = true) : fle (decayScale d (exact16 q)) (decayScale e (exact16 q)) = true := by
  rw [decayScale_of_not_fle hdHalf, decayScale_of_not_fle heHalf]
  exact fle_fadd_left (between_rise hd hdHalf hq) (between_rise he heHalf hq)
    (fle_fmul_right (between_upperPart hd hdHalf) (between_upperPart he heHalf) (upperPart_mono hd he hde)
      (between_maxScale_fsub_fOne hq)) between_fOne

end

/-- Up to 0.5 the decay scale is at most 1. -/
theorem decayScale_fle_fOne {d : FVal} (hd : Between 0 (2 ^ 149) d) (h : fle d fHalf = true) (w : FVal) :
    fle (decayScale d w) fOne = true := by
  have hone : fle (fadd fHalf fHalf) fOne = true := by decide +kernel
  rw [decayScale_of_fle h]
  exact fle_trans (fle_fadd_left hd between_fHalf h between_fHalf) hone

/-- Settles O44: each half of the scale keeps the order of decays by the order of its operations, and 1 separates the
halves. -/
theorem decayScaleIsMonotone : Obligations.DecayScaleIsMonotone := by
  intro raw d e hraw hd he hde
  have hdUnit := between_of_inUnit hd
  have heUnit := between_of_inUnit he
  cases hdHalf : fle (toVal d) fHalf with
  | true =>
    cases heHalf : fle (toVal e) fHalf with
    | true =>
      rw [decayScale_of_fle hdHalf, decayScale_of_fle heHalf]
      exact fle_fadd_left hdUnit heUnit hde between_fHalf
    | false => exact fle_trans (decayScale_fle_fOne hdUnit hdHalf _) (fOne_fle_decayScale heUnit heHalf hraw)
  | false =>
    have heHalf : fle (toVal e) fHalf = false :=
      Bool.eq_false_iff.2 fun h => Bool.eq_false_iff.1 hdHalf (fle_trans hde h)
    exact decayScale_mono_of_not_fle hdUnit hdHalf hraw heUnit heHalf hde

end Sys2Proof.Machine

/-! ### Proofs: the control commands and blocks of frames (45_pipeline_and_host.md R111 to R115, R122, R124)

Each range of items of `GET` is the list of the statements, read by index; every other item is not defined, so it raises
its error. A legal control is its own clamped value, so the setters of `STATE_RESTORE` store the saved controls. -/

namespace Sys2Proof.Machine

/- A checking thread for each theorem would reserve more memory than there is; as in Tests/Slice0.lean. -/
set_option Elab.async false

/-! #### `NOP`, `INIT` and `GET_HB` -/

/-- Settles O16: both commands by their meanings. -/
theorem nopAndGetHbOnlyReadTheState : Obligations.NopAndGetHbOnlyReadTheState :=
  fun _ _ => ⟨rfl, rfl, rfl, rfl, rfl⟩

/-- Settles O14: `INIT` is the reset sequence. -/
theorem initGivesTheResetState : Obligations.InitGivesTheResetState :=
  fun s => congrArg Host.Outcome.next (s.resetSequence_eq Config.params)

/-! #### The items of `GET` -/

theorem scaledEntry_eq_getElem? (c : Scaled) (f : Nat) : scaledEntry c f = (scaledWords c)[f]? := by
  by_cases h : f < 34
  · interval_cases f <;> rfl
  · rw [List.getElem?_eq_none (Nat.not_lt.1 h), ← Option.not_isSome_iff_eq_none, scaledEntry_isSome]
    simpa using h

theorem rawEntry_eq_getElem? (p : RawPreset) (f : Nat) : rawEntry p f = (rawWords p)[f]? := by
  by_cases h : f < 35
  · interval_cases f <;> rfl
  · rw [List.getElem?_eq_none (Nat.not_lt.1 h), ← Option.not_isSome_iff_eq_none, rawEntry_isSome]
    simpa using h

theorem readItem_control_eq (p : Params) (s : State) {n : Nat} (h : n < (controlWords s).length) :
    readItem p s n = some (controlWords s)[n] := by
  have hn : n < 13 := h
  interval_cases n <;> simp [readItem, controlWords, intResult, Config.numPresets, BitVec.ofNat_toNat]

/-- The items of one of the three presets: the high byte selects it, the low byte is the index of the field. -/
theorem readItem_preset_eq (p : Params) (s : State) {f : Nat} (h : f < 256) :
    readItem p s (0x0100 + f) = scaledEntry s.base f ∧ readItem p s (0x0200 + f) = scaledEntry s.cur f ∧
      readItem p s (0x0300 + f) = rawEntry (p.preset s.ctl.presetIdx) f := by
  have hquot (k : Nat) : (k * 256 + f) / 256 = k := by omega
  have hrem (k : Nat) : (k * 256 + f) % 256 = f := by omega
  refine ⟨?_, ?_, ?_⟩
  · simp only [readItem, hquot 1, hrem 1]
  · simp only [readItem, hquot 2, hrem 2]
  · simp only [readItem, hquot 3, hrem 3]

/-- `GET` of an item that has a value (45_pipeline_and_host.md R114). -/
theorem exec_get_of_readItem {n : Nat} {s : State} {v : Word} (hn : n < 65536)
    (h : readItem Config.params s n = some v) : exec (.get (BitVec.ofNat 16 n)) s = .next { s with res0 := v } := by
  have hitem : (BitVec.ofNat 16 n).toNat = n := Nat.mod_eq_of_lt hn
  exact congrArg Host.Outcome.next (getItem_of_some (by rwa [hitem]))

theorem causeBit_eq_twoPow (e : CmdError) : causeBit e = BitVec.twoPow 32 (errorBit e) := by cases e <;> rfl

/-- An error is recorded in its own bit and in `LAST_CAUSE`, nowhere else (60_exceptions.md R128). -/
theorem records_statusAfter (e : CmdError) (v : Word) : Records e v (statusAfter e v) := by
  refine ⟨statusAfter_errorBit e v, ?_, fun i hi hlast => ?_⟩
  · rw [← lastCause, lastCause_statusAfter]
    cases e <;> rfl
  · have hbit : (causeBit e).getLsbD i = false := by
      rw [causeBit_eq_twoPow, BitVec.getLsbD_twoPow, decide_eq_false hi.symm, Bool.and_false]
    rw [statusAfter_getLsbD e v hlast, hbit, Bool.or_false]

/-- Settles O15: each item is an entry of its list, and a number outside the four ranges is no defined item. -/
theorem getReturnsEveryDefinedItem : Obligations.GetReturnsEveryDefinedItem := by
  intro s
  refine ⟨fun n h => ?_, fun f h => ?_, fun f h => ?_, fun f h => ?_, fun item h0 h1 h2 h3 => ?_⟩
  · have hn : n < 13 := h
    exact exec_get_of_readItem (by omega) (readItem_control_eq _ s h)
  · have hf : f < 34 := h
    obtain ⟨hbase, -, -⟩ := readItem_preset_eq Config.params s (show f < 256 by omega)
    exact exec_get_of_readItem (by omega) (by rw [hbase, scaledEntry_eq_getElem?, List.getElem?_eq_getElem h])
  · have hf : f < 34 := h
    obtain ⟨-, hcur, -⟩ := readItem_preset_eq Config.params s (show f < 256 by omega)
    exact exec_get_of_readItem (by omega) (by rw [hcur, scaledEntry_eq_getElem?, List.getElem?_eq_getElem h])
  · have hf : f < 35 := h
    obtain ⟨-, -, hraw⟩ := readItem_preset_eq Config.params s (show f < 256 by omega)
    exact exec_get_of_readItem (by omega) (hraw.trans ((rawEntry_eq_getElem? _ f).trans (List.getElem?_eq_getElem h)))
  · have hundefined : (Instr.get item).wellFormed = false := by
      simp only [Instr.wellFormed, definedItem, Bool.or_eq_false_iff, decide_eq_false_iff_not]
      exact ⟨⟨⟨by omega, h1⟩, h2⟩, h3⟩
    exact ⟨_, exec_of_not_wellFormed s hundefined, records_statusAfter _ _⟩

/-! #### `STATE_RESTORE` -/

/-- The encoding of a number is no NaN. -/
theorem Between.isNaN_eq_false {l h : Nat} {v : F32} (hv : Between l h (toVal v)) : isNaN v = false :=
  Bool.eq_false_iff.2 fun hnan => hv.ne_nan (isNaN_iff_toVal_eq_nan.1 hnan)

/-- A setter stores a legal operand as it is, `−0.0` included (44_parameter_controller.md R104). -/
theorem storedControl_of_inUnit {v : F32} (h : inUnit v = true) (old : F32) : storedControl v old = v := by
  have hnan := (between_of_inUnit h).isNaN_eq_false
  obtain ⟨neg, k, hval, hlow, hhigh⟩ := between_of_inUnit h
  have hnotBelow : flt (toVal v) (toVal 0#32) = false := by
    rw [hval, toVal_zero]
    exact decide_eq_false (by rw [units_false]; omega)
  have hnotAbove : flt (toVal 0x3F800000#32) (toVal v) = false := by
    rw [hval, ← fOne, fOne_eq]
    exact decide_eq_false (by rw [units_false]; omega)
  simp only [storedControl, hnan, clamp01, clampBits, hnotBelow, hnotAbove, Bool.false_eq_true, if_false]

/-- A preset index selects itself (42_preset_scaler.md R85). -/
theorem presetOf_ofNat_val (i : Fin 6) : presetOf (BitVec.ofNat 16 i.val) = i := by
  decide +revert

/-- The setters of `STATE_RESTORE` leave the operands they are given, if these are legal, and the index. -/
theorem foldl_afterSetter_of_legal {c : Controls} (h : c.Legal) (old : Controls) :
    [Instr.psDecay c.decay, .psIngain c.ingain, .psRevlvl c.revlvl, .psMix c.mix].foldl Controls.afterSetter old =
      { c with presetIdx := old.presetIdx } := by
  obtain ⟨hdecay, hmix, hingain, hrevlvl⟩ := h
  simp only [List.foldl_cons, List.foldl_nil, Controls.afterSetter, storedControl_of_inUnit hdecay,
    storedControl_of_inUnit hmix, storedControl_of_inUnit hingain, storedControl_of_inUnit hrevlvl]

/-- Settles O40: `PS_APPLY` brings back the index and `BASE`, the setters the other controls, and `CUR` is derived from
them. -/
theorem restoreBringsBackControlsAndPresets : Obligations.RestoreBringsBackControlsAndPresets := by
  intro s u hs hlegal
  obtain ⟨hbase, hcur⟩ := hs
  have hsetters : ∀ i ∈ [Instr.psDecay s.ctl.decay, .psIngain s.ctl.ingain, .psRevlvl s.ctl.revlvl,
      .psMix s.ctl.mix], i.opcode ∈ setterOpcodes := by
    simp [setterOpcodes, Instr.opcode]
  refine ⟨_, (runInstrs_cons _ rfl).trans (runInstrs_setters_rederive hsetters _), ?_⟩
  rw [foldl_afterSetter_of_legal hlegal, presetOf_ofNat_val]
  exact ⟨rfl, hbase.symm, by rw [hcur, hbase]; rfl⟩

/-! #### `PROCESS_BLOCK` -/

/-- Settles O53: by the recursion of `processBlock`, two frames at a time. -/
theorem blockIsItsPairsInOrder : Obligations.BlockIsItsPairsInOrder := by
  intro fs
  induction fs using processBlock.induct with
  | case1 f0 f1 rest ih =>
    obtain ⟨hlen, hpairs⟩ := ih
    refine ⟨by simp only [processBlock, List.length_cons, hlen]; omega, fun i h => ?_⟩
    cases i with
    | zero => rfl
    | succ i =>
      exact hpairs i (by simp only [List.length_cons] at h; omega)
  | case2 f => exact ⟨by simp [processBlock], fun i h => absurd h (by simp)⟩
  | case3 => exact ⟨rfl, fun i h => absurd h (by simp)⟩

end Sys2Proof.Machine

/-! ### Proofs: the frame-pair pipeline (45_pipeline_and_host.md R116 to R121)

`PROCESS_PAIR` is put together from the operations the other families pin: the pushes and tap sums, one tick, the mix.
What silence leaves is read off the same equation: a zero stays a zero through every operation with finite gains, so
every read, sum and write of the tick is one. -/

namespace Sys2Proof.Machine

/- A checking thread for each theorem would reserve more memory than there is; as in Tests/Slice0.lean. -/
set_option Elab.async false

/-! #### Frames and the mix -/

theorem frameOf_left (r l : Half) : (frameOf r l).extractLsb' 0 16 = l := by
  ext i hi
  simp [frameOf, hi, show i < 32 by omega]

theorem frameOf_right (r l : Half) : (frameOf r l).extractLsb' 16 16 = r := by
  ext i hi
  simp [frameOf, BitVec.getLsbD_eq_getElem hi, show 16 + i < 32 by omega]

theorem fOne_eq_whole : fOne = whole false 1 := by decide +kernel

theorem f32768_eq_whole : f32768 = whole false 32768 := f32768_eq

/-- The model's mix is the formula of the rule (45_pipeline_and_host.md R117). -/
theorem mixQ_eq_mixedSample (m dry wet : FVal) : mixQ m dry wet = mixedSample m dry wet := by
  rw [mixQ, quant16, fOne_eq_whole, f32768_eq_whole]
  rfl

/-! #### `PROCESS_PAIR` -/

/-- The encoding of an input sample (45_pipeline_and_host.md R116). -/
def inputSample (q : Half) : F32 := pack (scaled16 q)

theorem pack_scaled16 (q : Half) : pack (scaled16 q) = inputSample q := (rfl)

theorem toVal_inputSample (q : Half) : toVal (inputSample q) = exact16 q := toVal_gainOf q

/-- The tick of a frame pair, on the full sums of the two decimators (45_pipeline_and_host.md R118). -/
def pairTick (f0 f1 : Word) (s : State) : TickResult :=
  tick s.cur
    (specSum Config.hbCoeff allK (decimateRing s.hb.downL (inputSample (frameL f0)) (inputSample (frameL f1))))
    (specSum Config.hbCoeff allK (decimateRing s.hb.downR (inputSample (frameR f0)) (inputSample (frameR f1)))) s.wa

/-- One output frame: each channel's dry sample mixed with its wet value, right over left (45_pipeline_and_host.md
R117). -/
def mixedFrame (mix : F32) (f : Word) (wetL wetR : FVal) : Word :=
  frameOf (mixedSample (toVal mix) (exact16 (frameR f)) wetR) (mixedSample (toVal mix) (exact16 (frameL f)) wetL)

/-- What `PROCESS_PAIR` leaves, in the words of the statements; `oL` and `oR` encode the outputs of the tick. -/
theorem exec_processPair_eq (f0 f1 : Word) (s : State) :
    ∃ oL oR n, toVal oL = (pairTick f0 f1 s).outL ∧ toVal oR = (pairTick f0 f1 s).outR ∧
      exec (.processPair f0 f1) s = .next { s with
        hb := ⟨decimateRing s.hb.downL (inputSample (frameL f0)) (inputSample (frameL f1)),
          decimateRing s.hb.downR (inputSample (frameR f0)) (inputSample (frameR f1)),
          interpolateRing s.hb.upL oL, interpolateRing s.hb.upR oR⟩
        wa := (pairTick f0 f1 s).wa
        res0 := mixedFrame s.ctl.mix f0 (fmul (specSum Config.hbCoeff evenK (s.hb.upL.push oL)) (whole false 2))
          (fmul (specSum Config.hbCoeff evenK (s.hb.upR.push oR)) (whole false 2))
        res1 := mixedFrame s.ctl.mix f1
          (fmul (specSum Config.hbCoeff oddK (interpolateRing s.hb.upL oL)) (whole false 2))
          (fmul (specSum Config.hbCoeff oddK (interpolateRing s.hb.upR oR)) (whole false 2))
        freeCount := n } := by
  obtain ⟨hL, hR⟩ : Rounded (pairTick f0 f1 s).outL ∧ Rounded (pairTick f0 f1 s).outR :=
    rounded_tick_outputs _ _ _ _
  refine ⟨_, _, s.freeCount + nanDraws (pairTick f0 f1 s).outL + nanDraws (pairTick f0 f1 s).outR,
    hL.toVal_encodeAt s.freeCount, hR.toVal_encodeAt (s.freeCount + nanDraws (pairTick f0 f1 s).outL), ?_⟩
  rw [exec, execProcessPair, processPair]
  simp only [pack_scaled16, toVal_inputSample, mixQ_eq_mixedSample, interpolateOut0_eq, interpolateOut1_eq,
    decimateOut_eq]
  rfl

/-- Settles O50: `exec_processPair_eq`, with each push pinned slot by slot. -/
theorem processPairRunsTheWholeCore : Obligations.ProcessPairRunsTheWholeCore := by
  intro f0 f1 s
  obtain ⟨oL, oR, n, hL, hR, hexec⟩ := exec_processPair_eq f0 f1 s
  exact ⟨_, _, _, _, oL, oR, _, _, _, _, _, _, _, _, _, _, n, hexec, toVal_inputSample _, toVal_inputSample _,
    toVal_inputSample _, toVal_inputSample _, pushed_push _ _, pushed_push _ _, pushed_push _ _, pushed_push _ _, hL,
    hR, pushed_push _ _, pushed_push _ _, pushed_push _ _, pushed_push _ _, frameOf_left _ _, frameOf_right _ _,
    frameOf_left _ _, frameOf_right _ _⟩

/-! #### Zeros -/

/-- A zero of either sign, as a bound for the operations of `Between`. -/
abbrev IsZero (v : FVal) : Prop := Between 0 0 v

theorem isZero_iff {v : FVal} : IsZero v ↔ ∃ neg, v = .num neg 0 := by
  constructor
  · rintro ⟨neg, k, rfl, hlow, hhigh⟩
    exact ⟨neg, by rw [units_eq_zero_iff.1 (le_antisymm hhigh hlow)]⟩
  · rintro ⟨neg, rfl⟩
    exact ⟨neg, 0, rfl, (units_zero neg).ge, (units_zero neg).le⟩

/-- A finite encoding stands for a number between its own bounds. -/
theorem exists_between_of_isFinite {w : F32} (h : isFinite w = true) : ∃ k, Between k k (toVal w) := by
  obtain ⟨neg, k, hval⟩ := toVal_of_isFinite h
  exact ⟨k, neg, k, hval, by cases neg <;> simp, by cases neg <;> simp⟩

/-- The only encodings of a zero (30_encoding.md R52). -/
theorem IsZero.eq_or_eq {w : F32} (h : IsZero (toVal w)) : w = 0#32 ∨ w = 0x80000000#32 := by
  obtain ⟨neg, hval⟩ := isZero_iff.1 h
  rw [← pack_toVal h.isNaN_eq_false, hval]
  cases neg
  · exact .inl rfl
  · exact .inr rfl

theorem quant16_num_zero (neg : Bool) : quant16 (.num neg 0) = 0#16 := by cases neg <;> decide +kernel

section

variable {x y : FVal} (hx : IsZero x)
include hx

theorem IsZero.fadd (hy : IsZero y) : IsZero (fadd x y) :=
  Between.fadd representable_zero representable_zero hx hy le_rfl le_rfl

theorem IsZero.fsub (hy : IsZero y) : IsZero (fsub x y) :=
  Between.fsub representable_zero representable_zero hx hy le_rfl le_rfl

theorem IsZero.fmul_between {l h : Nat} (hy : Between l h y) : IsZero (fmul x y) :=
  Between.fmul representable_zero representable_zero hx hy (by simp) (by simp)

theorem IsZero.fmul {w : F32} (hw : isFinite w = true) : IsZero (fmul x (toVal w)) := by
  obtain ⟨k, hk⟩ := exists_between_of_isFinite hw
  exact hx.fmul_between hk

theorem IsZero.fmul_left {w : F32} (hw : isFinite w = true) : IsZero (Machine.fmul (toVal w) x) := by
  rw [fmul_comm]
  exact hx.fmul hw

theorem IsZero.quant16_eq : quant16 x = 0#16 := by
  obtain ⟨neg, rfl⟩ := isZero_iff.1 hx
  exact quant16_num_zero neg

end

theorem isZero_exact16_zero : IsZero (exact16 0#16) := isZero_iff.2 ⟨false, by decide⟩

/-! #### The dry mix -/

theorem rounded_exact16 (q : Half) : Rounded (exact16 q) := by
  rintro _ _ ⟨⟩
  exact representable_exact16 q

/-- A sample over 32768 is stored as the sample (20_memory.md R34). -/
theorem quant16_exact16 (q : Half) : quant16 (exact16 q) = q := by
  have hlow := BitVec.le_toInt q
  have hhigh := BitVec.toInt_lt (x := q)
  rw [exact16, quant16_num _ (representable_exact16 q), storedSample_eq, Nat.mul_div_cancel _ (Nat.two_pow_pos 134),
    units_natAbs, min_eq_right (by omega), max_eq_right (by omega)]
  exact BitVec.ofInt_toInt

/-- The sign of a zero does not show in a sample. -/
theorem SameButZeroSign.quant16_eq {x y : FVal} (h : SameButZeroSign x y) : quant16 x = quant16 y := by
  rcases h with rfl | ⟨a, b, rfl, rfl⟩
  · rfl
  · rw [quant16_num_zero, quant16_num_zero]

/-- The clamp of the mix passes a number from -1 to 1. -/
theorem fclamp_of_between {v : FVal} (h : Between (2 ^ 149) (2 ^ 149) v) : fclamp v (fneg fOne) fOne = v := by
  obtain ⟨neg, k, rfl, hlow, hhigh⟩ := h
  have hnotBelow : flt (.num neg k) (.num true (2 ^ 149)) = false := decide_eq_false (by rw [units_true]; omega)
  have hnotAbove : flt (.num false (2 ^ 149)) (.num neg k) = false := decide_eq_false (by rw [units_false]; omega)
  rw [fOne_eq, fneg, Bool.not_false, fclamp, hnotBelow, hnotAbove]
  rfl

theorem fmul_num_zero (a b : Bool) (k : Nat) : fmul (.num a k) (.num b 0) = .num (a ^^ b) 0 := by
  rw [fmul_num, Nat.mul_zero, roundMag_zero _ (Nat.two_pow_pos 149)]

/-- Settles O51: the dry product is the sample itself, and the wet product is a zero, which changes at most its sign. -/
theorem dryMixReturnsTheInputSample : Obligations.DryMixReturnsTheInputSample := by
  intro q neg mag
  have hweight : fsub fOne (toVal 0#32) = fOne := by decide +kernel
  have hdry : fmul (exact16 q) fOne = exact16 q := by rw [fmul_comm, fOne_fmul (rounded_exact16 q)]
  have hwet : fmul (.num neg mag) (toVal 0#32) = .num (neg ^^ false) 0 := by rw [toVal_zero, fmul_num_zero]
  have hsum : Between (2 ^ 149) (2 ^ 149) (fadd (exact16 q) (.num (neg ^^ false) 0)) :=
    (between_exact16 q).fadd representable_one representable_one (isZero_iff.2 ⟨_, rfl⟩) le_rfl (by decide)
  calc mixQ (toVal 0#32) (exact16 q) (.num neg mag)
      = quant16 (fclamp (fadd (exact16 q) (.num (neg ^^ false) 0)) (fneg fOne) fOne) := by
        rw [mixQ, hweight, hdry, hwet]
    _ = quant16 (fadd (exact16 q) (.num (neg ^^ false) 0)) := by rw [fclamp_of_between hsum]
    _ = quant16 (exact16 q) := (sameButZeroSign_fadd_zero (rounded_exact16 q) _).quant16_eq.symm
    _ = q := quant16_exact16 q

/-! #### Silent rings -/

section

variable {r : Ring} (h : SilentRing r)
include h

theorem SilentRing.push {v : F32} (hv : IsZero (toVal v)) : SilentRing (r.push v) := by
  obtain ⟨-, hslots⟩ := pushed_push r v
  intro i hi
  rw [hslots i hi]
  split
  · exact hv.eq_or_eq
  · exact h i hi

theorem SilentRing.decimateRing {x0 x1 : F32} (h0 : IsZero (toVal x0)) (h1 : IsZero (toVal x1)) :
    SilentRing (decimateRing r x0 x1) := (h.push h0).push h1

theorem SilentRing.interpolateRing {y : F32} (hy : IsZero (toVal y)) : SilentRing (interpolateRing r y) :=
  (h.push hy).push (isZero_iff.2 ⟨false, toVal_zero⟩)

theorem SilentRing.isZero_windowSample (k : Nat) : IsZero (toVal (windowSample r k)) := by
  rw [isZero_iff]
  rcases h ((r.pos.toNat + 25 + k) % 64) (Nat.mod_lt _ (by decide)) with hslot | hslot
  · exact ⟨false, by rw [windowSample, hslot, toVal_zero]⟩
  · exact ⟨true, by rw [windowSample, hslot]; decide +kernel⟩

/-- Every tap of a silent ring adds a zero, since the coefficients are finite (log 3). -/
theorem SilentRing.isZero_specSum (ks : List Nat) : IsZero (specSum Config.hbCoeff ks r) := by
  induction ks using List.reverseRecOn with
  | nil => exact isZero_iff.2 ⟨false, rfl⟩
  | append_singleton ks k ih =>
    rw [specSum_append_singleton]
    exact ih.fadd ((h.isZero_windowSample k).fmul_left (Config.hbCoeff_isFinite k))

end

/-! #### A silent tick -/

/-- Every sample of the Work Area is 0. -/
def WorkArea.Silent (w : WorkArea) : Prop := w.ram.wf = true ∧ ∀ a, w.read a = 0#16

theorem gainsFinite_iff {c : Scaled} : GainsFinite c = true ↔ ∀ g ∈ allGains c, isFinite g = true := by
  simp only [GainsFinite, allGains, plainGains, Bool.and_eq_true, List.cons_append, List.nil_append,
    List.forall_mem_cons, List.not_mem_nil, false_imp_iff, implies_true, and_true, and_assoc, and_left_comm]

namespace WorkArea.Silent

variable {w : WorkArea} (h : w.Silent)
include h

theorem rr (off : Int) : IsZero (w.rr off) := by
  obtain ⟨-, hread⟩ := h
  rw [WorkArea.rr, hread, scaled16_eq]
  exact isZero_exact16_zero

theorem wr (off : Int) {v : FVal} (hv : IsZero v) : (w.wr off v).Silent := by
  obtain ⟨hwf, hread⟩ := h
  refine ⟨WorkArea.wf_wr hwf off v, fun a => ?_⟩
  rw [WorkArea.read_wr hwf, hv.quant16_eq, hread, ite_self]

theorem advance (n : Nat) : (w.advance n).Silent := h

/-- A reflection of a zero writes a zero (43_reverb_tick.md R90, R92). -/
theorem reflect {wall iir : F32} (hwall : isFinite wall = true) (hiir : isFinite iir = true) {inp : FVal}
    (hinp : IsZero inp) (d m : Half) : (reflect (toVal wall) (toVal iir) inp d m w).Silent :=
  h.wr _ (((hinp.fadd ((h.rr _).fmul hwall)).fsub (h.rr _)).fmul hiir |>.fadd (h.rr _))

theorem allpassArea {g : F32} (hg : isFinite g = true) {x : FVal} (hx : IsZero x) (m d : Half) :
    (allpassArea (toVal g) x m d w).Silent :=
  h.wr _ (hx.fsub ((h.rr _).fmul_left hg))

theorem allpassOut {g : F32} (hg : isFinite g = true) {x : FVal} (hx : IsZero x) (m d : Half) :
    IsZero (allpassOut (toVal g) x m d w) :=
  (((h.allpassArea hg hx m d).rr _).fmul hg).fadd (h.rr _)

variable {c : Scaled} (hc : ∀ g ∈ allGains c, isFinite g = true)
include hc

theorem combSum (m1 m2 m3 m4 : Half) : IsZero (combSum c m1 m2 m3 m4 w) :=
  have term {g : F32} (m : Half) (hg : g ∈ allGains c) : IsZero (fmul (toVal g) (w.rr m.toNat)) :=
    (h.rr _).fmul_left (hc g hg)
  (((term m1 (by simp [allGains, plainGains])).fadd (term m2 (by simp [allGains, plainGains]))).fadd
    (term m3 (by simp [allGains, plainGains]))).fadd (term m4 (by simp [allGains, plainGains]))

theorem reflections {xL xR : FVal} (hL : IsZero xL) (hR : IsZero xR) : (reflections c xL xR w).Silent := by
  have hwall : isFinite c.vWALL = true := hc _ (by simp [allGains])
  have hiir : isFinite c.vIIR = true := hc _ (by simp [allGains, plainGains])
  have hlin : IsZero (fmul xL (toVal c.vLIN)) := hL.fmul (hc _ (by simp [allGains]))
  have hrin : IsZero (fmul xR (toVal c.vRIN)) := hR.fmul (hc _ (by simp [allGains]))
  exact (((h.reflect hwall hiir hlin _ _).reflect hwall hiir hrin _ _).reflect hwall hiir hlin _ _).reflect hwall hiir
    hrin _ _

/-- A tick of silence in a silent Work Area is silent (43_reverb_tick.md R98). -/
theorem tick {xL xR : FVal} (hL : IsZero xL) (hR : IsZero xR) :
    (tick c xL xR w).wa.Silent ∧ IsZero (Machine.tick c xL xR w).outL ∧ IsZero (Machine.tick c xL xR w).outR := by
  have hapf1 : isFinite c.vAPF1 = true := hc _ (by simp [allGains, plainGains])
  have hapf2 : isFinite c.vAPF2 = true := hc _ (by simp [allGains, plainGains])
  have h4 := h.reflections hc hL hR
  have hcombL := h4.combSum hc c.mLCOMB1 c.mLCOMB2 c.mLCOMB3 c.mLCOMB4
  have hcombR := h4.combSum hc c.mRCOMB1 c.mRCOMB2 c.mRCOMB3 c.mRCOMB4
  have h5 := h4.allpassArea hapf1 hcombL c.mLAPF1 c.dAPF1
  have h6 := h5.allpassArea hapf1 hcombR c.mRAPF1 c.dAPF1
  have haL := h4.allpassOut hapf1 hcombL c.mLAPF1 c.dAPF1
  have haR := h5.allpassOut hapf1 hcombR c.mRAPF1 c.dAPF1
  have h7 := h6.allpassArea hapf2 haL c.mLAPF2 c.dAPF2
  have h8 := h7.allpassArea hapf2 haR c.mRAPF2 c.dAPF2
  have hbL := h6.allpassOut hapf2 haL c.mLAPF2 c.dAPF2
  have hbR := h7.allpassOut hapf2 haR c.mRAPF2 c.dAPF2
  simp only [Machine.tick]
  exact ⟨h8.advance 1, hbL.fmul (hc _ (by simp [allGains])), hbR.fmul (hc _ (by simp [allGains]))⟩

end WorkArea.Silent

/-! #### Silence -/

theorem isZero_inputSample_zero : IsZero (toVal (inputSample 0#16)) := by
  rw [toVal_inputSample]
  exact isZero_exact16_zero

/-- A legal mix of zeros is a sample of value 0. -/
theorem mixedSample_of_isZero {m : F32} (hm : inUnit m = true) {dry wet : FVal} (hdry : IsZero dry)
    (hwet : IsZero wet) : mixedSample (toVal m) dry wet = 0#16 := by
  have hmix := between_of_inUnit hm
  have hweight : Between (2 ^ 149) (2 ^ 149) (fsub fOne (toVal m)) :=
    between_fOne.fsub representable_one representable_one hmix (by decide) (by decide)
  have hdryPart := hdry.fmul_between hweight
  have hwetPart := hwet.fmul_between hmix
  have hsum := hdryPart.fadd hwetPart
  have hsumUnit := Between.fadd representable_one representable_one hdryPart hwetPart (Nat.zero_le _) (Nat.zero_le _)
  rw [← mixQ_eq_mixedSample, mixQ, fclamp_of_between hsumUnit, hsum.quant16_eq]

/-- The output frame of silence. -/
theorem mixedFrame_of_isZero {m : F32} (hm : inUnit m = true) {wetL wetR : FVal} (hL : IsZero wetL)
    (hR : IsZero wetR) : mixedFrame m 0#32 wetL wetR = 0#32 := by
  rw [mixedFrame, show frameL 0#32 = 0#16 from rfl, show frameR 0#32 = 0#16 from rfl,
    mixedSample_of_isZero hm isZero_exact16_zero hL, mixedSample_of_isZero hm isZero_exact16_zero hR]
  rfl

theorem forall_ringSel {P : RingSel → Prop} : (∀ h, P h) ↔ P .downL ∧ P .downR ∧ P .upL ∧ P .upR :=
  ⟨fun h => ⟨h _, h _, h _, h _⟩, fun ⟨hdl, hdr, hul, hur⟩ h => by cases h <;> assumption⟩

/-- Settles O52: zeros are pushed into silent rings, the tick is silent, and the mix is one of zeros. -/
theorem silenceGivesSilence : Obligations.SilenceGivesSilence := by
  intro s hwf hread hrings hgains hmix
  obtain ⟨hdownL, hdownR, hupL, hupR⟩ := forall_ringSel.1 hrings
  have hin := isZero_inputSample_zero
  have hdecL := hdownL.decimateRing hin hin
  have hdecR := hdownR.decimateRing hin hin
  obtain ⟨hwa, houtL, houtR⟩ : (pairTick 0#32 0#32 s).wa.Silent ∧ IsZero (pairTick 0#32 0#32 s).outL ∧
      IsZero (pairTick 0#32 0#32 s).outR :=
    WorkArea.Silent.tick ⟨hwf, hread⟩ (gainsFinite_iff.1 hgains) (hdecL.isZero_specSum allK)
      (hdecR.isZero_specSum allK)
  obtain ⟨oL, oR, n, hL, hR, hexec⟩ := exec_processPair_eq 0#32 0#32 s
  rw [← hL] at houtL
  rw [← hR] at houtR
  have htwo : Between 0 (2 ^ 150) (whole false 2) := fTwo_eq ▸ between_fTwo
  have hintL := hupL.interpolateRing houtL
  have hintR := hupR.interpolateRing houtR
  have hwet {r : Ring} (ks : List Nat) (hr : SilentRing r) :
      IsZero (fmul (specSum Config.hbCoeff ks r) (whole false 2)) := (hr.isZero_specSum ks).fmul_between htwo
  obtain ⟨-, hsilent⟩ := hwa
  exact ⟨_, hexec, mixedFrame_of_isZero hmix (hwet evenK (hupL.push houtL)) (hwet evenK (hupR.push houtR)),
    mixedFrame_of_isZero hmix (hwet oddK hintL) (hwet oddK hintR), hsilent,
    forall_ringSel.2 ⟨hdecL, hdecR, hintL, hintR⟩⟩

end Sys2Proof.Machine

/-! ### Proofs: command errors (60_exceptions.md R126 to R129, R136)

A rejected word raises its error on the accepted state, a malformed command on its own; a well-formed one leaves `STATUS`
to `INIT` and drives no line. So a command other than `INIT` either leaves `STATUS` or records an error there, and
recording one keeps the error bits that are set. -/

namespace Sys2Proof.Machine

/-! #### Well-formed commands and the interface -/

/-- The lines and the list of input samples are in `t` as in `s`; no command drives them but by an error. -/
def SameInterface (s t : State) : Prop :=
  t.rspErr = s.rspErr ∧ t.rspValid = s.rspValid ∧ t.cmdReady = s.cmdReady ∧ t.host = s.host

theorem sameInterface_afterSetters (s : State) (c : Controls) (derives : Bool) :
    SameInterface s (s.afterSetters c derives) := by
  cases derives <;> simp [SameInterface, State.afterSetters]

/-- A well-formed command, `INIT` included, leaves the interface as it is. -/
theorem exec_sameInterface_of_wellFormed (i : Instr) (s : State) (h : i.wellFormed = true) :
    ∃ t, exec i s = .next t ∧ SameInterface s t := by
  cases i with
  | nop | init | waRd _ | waAdv _ | waResize _ | psApply _ | psDerive | getHb _ _ =>
    exact ⟨_, rfl, by simp [SameInterface]⟩
  | hbDec ch x0 x1 =>
    exact ⟨_, congrArg Host.Outcome.next (hbDec_of_finite Config.params ch s h), by simp [SameInterface]⟩
  | hbInt ch y => exact ⟨_, congrArg Host.Outcome.next (hbInt_of_finite Config.params ch s h), by simp [SameInterface]⟩
  | waWr off v => exact ⟨_, exec_waWr_of_wellFormed s h, by simp [SameInterface]⟩
  | rvTick xL xR => exact ⟨_, exec_rvTick_of_wellFormed s h, by simp [SameInterface]⟩
  | psDecay _ | psIngain _ | psRevlvl _ | psMix _ =>
    exact ⟨_, exec_setter (by simp [setterOpcodes, Instr.opcode]) s, sameInterface_afterSetters s _ _⟩
  | get item =>
    obtain ⟨v, hv⟩ := exec_get_of_wellFormed s h
    exact ⟨_, hv, by simp [SameInterface]⟩
  | processPair f0 f1 => exact ⟨_, rfl, by simp [SameInterface, processPair]⟩

/-- A well-formed command other than `INIT` leaves `STATUS` (10_state.md R26). -/
theorem status_of_exec_of_wellFormed {i : Instr} {s t : State} (h : i.wellFormed = true) (hinit : i ≠ .init)
    (hexec : exec i s = .next t) : t.status = s.status := by
  obtain ⟨-, -, -, -, -, -, -, -, -, -, -, -, -, -, -, -, hstatus, -⟩ := keepsRow_of_exec hexec
  exact hstatus h hinit

/-- Settles O8: the interface is kept case by case, `STATUS` by the command's row of the access table. -/
theorem wellFormedCommandsCompleteWithoutError : Obligations.WellFormedCommandsCompleteWithoutError := by
  intro i s h hinit
  obtain ⟨t, hexec, hinterface⟩ := exec_sameInterface_of_wellFormed i s h
  exact ⟨t, hexec, status_of_exec_of_wellFormed h hinit hexec, hinterface⟩

/-! #### Malformed commands and rejected words -/

/-- Settles O7: a malformed command raises its operand error, and raising one is recorded in `STATUS`. -/
theorem malformedOperandsRaiseAndChangeNothingElse : Obligations.MalformedOperandsRaiseAndChangeNothingElse :=
  fun _ s h => ⟨_, exec_of_not_wellFormed s h, records_statusAfter _ _⟩

/-- A presented command whose word the decoder rejects is what the sample asks for (30_encoding.md R50). -/
theorem requestOf_presented_of_rejected {c : CmdWords} {r : Reject} (h : decode c = .rejected r) :
    requestOf true (presented c) = .rejected r := by
  simp only [requestOf, presented, if_true, h]

/-- The step of a transferred word that is rejected (60_exceptions.md R128). -/
theorem step_of_rejected {s : State} {c : CmdWords} {rest : List HostDrive} {r : Reject}
    (hhost : s.host = presented c :: rest) (hready : s.cmdReady = true) (hdec : decode c = .rejected r) :
    step s = .next { s with host := rest, rspValid := true, rspErr := true
                            status := statusAfter (rejectCause r) s.status } := by
  calc step s = serve (requestOf s.cmdReady (presented c)) (s.withHost rest) := step_cons hhost rfl
    _ = .next ((s.withHost rest).accept.raise (rejectCause r)) := by
      rw [hready, requestOf_presented_of_rejected hdec, serve]
    _ = _ := by rw [State.raise_eq, State.accept_eq, State.withHost]

/-- Settles O6: both rejections by the step of a rejected word. -/
theorem rejectedWordRaisesItsError : Obligations.RejectedWordRaisesItsError :=
  fun _ _ _ hhost hready =>
    ⟨fun hdec => ⟨_, step_of_rejected hhost hready hdec, records_statusAfter _ _⟩,
      fun hdec => ⟨_, step_of_rejected hhost hready hdec, records_statusAfter _ _⟩⟩

/-! #### Sticky error bits -/

/-- Recording an error clears no error bit: it sets its own and keeps the others (60_exceptions.md R128). -/
theorem statusAfter_keeps_errorBit (e : CmdError) {v : Word} {b : Nat} (hb : b < 4) (h : v.getLsbD b = true) :
    (statusAfter e v).getLsbD b = true := by
  rw [statusAfter_getLsbD e v (by omega), h, Bool.true_or]

/-- A command other than `INIT` clears no error bit: it leaves `STATUS` or records an error. -/
theorem exec_keeps_errorBit {i : Instr} {s t : State} {b : Nat} (hb : b < 4) (hinit : i ≠ .init)
    (hexec : exec i s = .next t) (h : s.status.getLsbD b = true) : t.status.getLsbD b = true := by
  cases hw : i.wellFormed with
  | false =>
    obtain rfl := Host.Outcome.next.inj ((exec_of_not_wellFormed s hw).symm.trans hexec)
    exact statusAfter_keeps_errorBit _ hb h
  | true => rwa [status_of_exec_of_wellFormed hw hinit hexec]

/-- Settles O59: a rejected word records its error, a decoded one is a command other than `INIT`. -/
theorem errorBitsStaySetUntilReset : Obligations.ErrorBitsStaySetUntilReset := by
  intro s t c rest b hb hhost hready hnotInit hstep h
  cases hdec : decode c with
  | rejected r =>
    obtain rfl := Host.Outcome.next.inj ((step_of_rejected hhost hready hdec).symm.trans hstep)
    exact statusAfter_keeps_errorBit _ hb h
  | ok i =>
    have hinit : i ≠ .init := fun hi => hnotInit (hi ▸ hdec)
    rw [stepRunsTheTransferredCommand s c i rest hhost hready hdec] at hstep
    exact exec_keeps_errorBit hb hinit hstep h

/-! #### Steps without a command -/

/-- With `rst_n` high and `cmd_valid` 0 no command is presented, whatever stands on the other signals. -/
theorem requestOf_not_valid (c : CmdWords) : requestOf true ⟨true, false, c, false⟩ = .none := by
  simp only [requestOf, if_true, Bool.false_eq_true, if_false]

/-- Settles O12: both steps are idle, the second on the state that has taken its sample. -/
theorem idleStepHoldsTheState : Obligations.IdleStepHoldsTheState := by
  refine ⟨fun s hhost => ?_, fun s c rest hhost hready => ?_⟩
  · calc step s = .next s.idle := by rw [step, hhost]
      _ = _ := by rw [State.idle_eq]
  · calc step s = serve (requestOf s.cmdReady ⟨true, false, c, false⟩) (s.withHost rest) := step_cons hhost rfl
      _ = .next (s.withHost rest).idle := by rw [hready, requestOf_not_valid, serve]
      _ = _ := by rw [State.idle_eq, State.withHost]

end Sys2Proof.Machine

/-! ### Proofs: reset and abandoned commands (70_reset_and_hazards.md R137 to R139)

A low `rst_n` and its fall on a command both leave `cmd_ready` at 0, and from there the next sample with `rst_n` high runs
the reset sequence, which forgets what the abandoned command left. What is left to prove of a fall is that the free values
stay in the command's row of the access table (10_state.md R26). -/

namespace Sys2Proof.Machine

/- A checking thread for each theorem would reserve more memory than there is; as in Tests/Slice0.lean. -/
set_option Elab.async false

/-! #### The reset state -/

/-- The mask is the size less one, in the u16 that holds it (41_work_area.md R75). -/
theorem resized_mask_toNat_add_one (bytes : Nat) : (resized bytes).mask.toNat + 1 = (resized bytes).size := by
  obtain ⟨-, -, hmask, -⟩ := WorkArea.inv_resized bytes
  obtain ⟨hpos, -⟩ := sizeFor_mem bytes
  rw [hmask]
  exact Nat.sub_add_cancel hpos

/-- Every ring of the reset state holds `+0.0` in every slot, the cursor at 0 (70_reset_and_hazards.md R138). -/
theorem Rings.get_reset (h : RingSel) : Rings.reset.get h = Ring.reset := by
  cases h <;> rfl

/-- Settles O13: the reset state is written with these values, and the Work Area is a resized one. -/
theorem resetStateValues : Obligations.ResetStateValues := by
  have hring (h : RingSel) : State.reset.hb.get h = Ring.reset := Rings.get_reset h
  refine ⟨rfl, rfl, rfl, rfl, rfl, rfl, fun h i hi => ?_, fun h => ?_, fun _ => rfl, rfl,
    resized_mask_toNat_add_one _, rfl, rfl, rfl, rfl⟩
  · rw [hring]
    exact Vector.getElem_replicate hi
  · rw [hring, Ring.reset]

/-- Settles O60: a resized Work Area meets its invariant, `CUR` is written as derived, and 0.5 is a legal control. -/
theorem resetMeetsTheInvariants : Obligations.ResetMeetsTheInvariants :=
  ⟨WorkArea.inv_resized _, ⟨rfl, rfl⟩, ⟨rfl, .inl ⟨rfl, rfl⟩⟩, controls_reset_legal⟩

/-! #### Nothing stops the machine -/

/-- Settles O10: of the things a step can be, only a command might not answer a next state, and every command does. -/
theorem everyStepAnswersNext : Obligations.EveryStepAnswersNext := by
  intro s
  rcases step_cases s with ⟨-, h⟩ | ⟨d, rest, -, h | h | h | ⟨e, h⟩ | ⟨r, h⟩ | ⟨i, -, h⟩⟩
  case inr.inr.inr.inr.inr.inr =>
    obtain ⟨t, ht, -⟩ := exec_keepsRow i (s.withHost rest).accept
    exact ⟨t, h.trans ht⟩
  all_goals exact ⟨_, h⟩

/-! #### The samples of a reset -/

section

variable {s : State} {d : HostDrive} {rest : List HostDrive}

/-- A sample with `rst_n` low holds the state in reset, whatever it presents (70_reset_and_hazards.md R139). -/
theorem step_of_rstN_low (hhost : s.host = d :: rest) (hlow : d.rstN = false) :
    step s = .next (s.withHost rest).holdReset := by
  rw [step, hhost]
  simp only [sampled, hlow, Bool.false_and, requestOf, Bool.false_eq_true, if_false, serve]

/-- The release of `rst_n` leaves the reset state but for the host's side and the model's own counter. -/
theorem State.releaseReset_eq (s : State) :
    s.releaseReset Config.params = { State.reset with host := s.host, freeCount := s.freeCount } := by
  rw [State.releaseReset, State.resetSequence_eq]
  rfl

/-- While `cmd_ready` is 0, the sample in which `rst_n` is high again leaves the reset state (70_reset_and_hazards.md
R137). -/
theorem step_of_release (hhost : s.host = d :: rest) (hready : s.cmdReady = false) (hhigh : d.rstN = true)
    (hfalls : d.rstFalls = false) : step s = .next { State.reset with host := rest, freeCount := s.freeCount } := by
  have hrequest : requestOf s.cmdReady d = .release := by
    simp only [requestOf, hhigh, hready, Bool.false_eq_true, if_true, if_false]
  calc step s = serve (requestOf s.cmdReady d) (s.withHost rest) := step_cons hhost hfalls
    _ = .next ((s.withHost rest).releaseReset Config.params) := by rw [hrequest, serve]
    _ = _ := by rw [State.releaseReset_eq, State.withHost_host, State.withHost_freeCount]

end

/-! #### The row of an abandoned command -/

/-- Controls none of which a command writes are held. -/
@[simp] theorem Controls.disturbed_eq_self {r : Touched} (l : Leftover) (c : Controls) (hidx : r.presetIdx = false)
    (hdecay : r.decay = false) (hmix : r.mix = false) (hingain : r.ingain = false) (hrevlvl : r.revlvl = false) :
    c.disturbed r l = c := by
  ext1 <;> simp [*]

/-- With no ring in the row, every ring is held. -/
@[simp] theorem Rings.disturbed_nil {r : Touched} (l : Leftover) (b : Rings) (h : r.rings = []) :
    b.disturbed r l = b := by
  rw [Rings.disturbed, h, List.foldl_nil]

/-- With one ring in the row, that ring alone is written. -/
theorem Rings.disturbed_singleton {r : Touched} {k : RingSel} (l : Leftover) (b : Rings) (h : r.rings = [k]) :
    b.disturbed r l = b.put k (l.rings.get k) := by
  rw [Rings.disturbed, h, List.foldl_cons, List.foldl_nil]

@[simp] theorem WorkArea.disturbed_eq_self {r : Touched} (l : Leftover) (w : WorkArea) (hram : r.ram = false)
    (hbase : r.waBase = false) (hsize : r.waSize = false) : w.disturbed r l = w := by
  ext1 <;> simp [*]

/-- Abandoning what writes nothing keeps every column. -/
theorem columnsKept_abandon_nothing (i : Instr) (s : State) : ColumnsKept i s (s.abandon {}) := by
  simp [ColumnsKept]

/-- Abandoning what writes `STATUS` only keeps the columns of a command that raises an error. -/
theorem columnsKept_abandon_status {i : Instr} (s : State) (h : i.wellFormed = false) :
    ColumnsKept i s (s.abandon { status := true }) := by
  simp [ColumnsKept, h]

/-- A setter's row is empty where its operand is a NaN (44_parameter_controller.md R104). -/
theorem columnsKept_abandon_ite {i : Instr} {s : State} {r : Touched} (c : Bool) (h : ColumnsKept i s (s.abandon r)) :
    ColumnsKept i s (s.abandon (if c then {} else r)) := by
  cases c
  · exact h
  · exact columnsKept_abandon_nothing i s

/-- Free values in the row of a well-formed command keep every column outside it. -/
theorem columnsKept_abandon_rowOf (i : Instr) (s : State) (h : i.wellFormed = true) :
    ColumnsKept i s (s.abandon (rowOf i)) := by
  cases i with
  | nop => exact columnsKept_abandon_nothing _ s
  | hbDec ch x0 x1 =>
    simp [ColumnsKept, notIn, Instr.opcode, rowOf, h, Rings.disturbed_singleton, Rings.put_downRing_up]
  | hbInt ch y =>
    simp [ColumnsKept, notIn, Instr.opcode, rowOf, h, Rings.disturbed_singleton, Rings.put_upRing_down]
  | psDecay v | psIngain v | psRevlvl v | psMix v =>
    exact columnsKept_abandon_ite _ (by simp [ColumnsKept, notIn, Instr.opcode, h])
  | init | waRd _ | waWr _ _ | waAdv _ | waResize _ | rvTick _ _ | psApply _ | psDerive | get _ | getHb _ _
  | processPair _ _ => simp [ColumnsKept, notIn, Instr.opcode, rowOf, h]

/-- An abandoned command keeps what its row does not write, and everything but `STATUS` where it raises an error
(log 10). -/
theorem columnsKept_abandon (i : Instr) (s : State) : ColumnsKept i s (s.abandon (Request.command i).touches) := by
  cases h : i.wellFormed with
  | false =>
    rw [Request.touches, h]
    exact columnsKept_abandon_status s h
  | true =>
    rw [Request.touches, h]
    exact columnsKept_abandon_rowOf i s h

/-- What a sample asks for does not depend on whether `rst_n` falls in it (log 10). -/
theorem requestOf_rstFalls (c : CmdWords) : requestOf true ⟨true, true, c, true⟩ = requestOf true (presented c) := rfl

/-- Settles O11: both first steps leave `cmd_ready` at 0, the second keeping the command's row; the release follows. -/
theorem resetSignalLeavesTheResetState : Obligations.ResetSignalLeavesTheResetState := by
  constructor
  · intro s low high rest hhost hlow hhigh hfalls
    exact ⟨_, step_of_rstN_low hhost hlow, rfl, rfl, rfl, step_of_release rfl rfl hhigh hfalls⟩
  · intro s c i high rest hhost hready hdec hhigh hfalls
    have hstep : step s = .next ((s.withHost (high :: rest)).abandon (Request.command i).touches) := by
      rw [step_of_fall hhost rfl rfl, hready, requestOf_rstFalls, requestOf_presented hdec]
    exact ⟨_, hstep, rfl, rfl, rfl, columnsKept_abandon i (s.withHost (high :: rest)),
      step_of_release rfl rfl hhigh hfalls⟩

end Sys2Proof.Machine
